-- ==== Sys2Proof/Word.lean ====
section
/-! DEFINITION. The word types of the message protocol and their plainest bit operations (rules R8, R13, R80, R82, R83). -/

namespace Sys2Proof

/-- One serial byte (R13: bit 0 is the least significant bit). -/
abbrev Byte := BitVec 8

/-- The channel field of a status byte, 0 to 15 (R8, R82). -/
abbrev Channel := BitVec 4

/-- The command field of a status byte (R8, R82). -/
abbrev Command := BitVec 3

/-- A 7-bit data field: a note number, a velocity, a controller number … (R8, R83). -/
abbrev Data := BitVec 7

/-- The 14-bit pitch-wheel value (R8, R27). -/
abbrev Wheel := BitVec 14

/-- A byte is a status byte exactly when its high bit is set; otherwise it is a data byte (R80). -/
def isStatus (b : Byte) : Bool := b.msb

/-- `command = b[6:4]` of a status byte (R82). -/
def commandOf (b : Byte) : Command := b.extractLsb' 4 3

/-- `channel = b[3:0]` of a status byte (R82). -/
def channelOf (b : Byte) : Channel := b.extractLsb' 0 4

/-- The 7-bit payload `b[6:0]` of a data byte (R83). -/
def payloadOf (b : Byte) : Data := b.extractLsb' 0 7

/-- The status byte with the given fields: `1 command channel` (R81). -/
def statusByte (cmd : Command) (c : Channel) : Byte := 1#1 ++ cmd ++ c

/-- The data byte with the given payload: `0 payload` (R81). -/
def dataByte (d : Data) : Byte := 0#1 ++ d

/-- Commands 4 and 5 (ProgramChange, ChannelPressure) take one data byte; every other command,
the reserved command 7 included, takes two (R84). -/
def takesOneDataByte (cmd : Command) : Bool := cmd == 4#3 || cmd == 5#3

end Sys2Proof
end

