-- ==== Sys2Proof/Config.lean ====
section
/-! DEFINITION. What an implementation of the engine fixes: the build variant, the unit maps, the numeric constants and
the parameters the spec leaves OPEN (rules R3, R8 to R12, R193; decisions D12 to D15, D19, D22, D23, D27). All of it is plain
data held in one field of the state, so that a claim about every state is a claim about every admissible configuration (DESIGN
CHOICE, notes/assumptions/3.md). -/

namespace Sys2Proof

/-- The three build variants (R3, R12). -/
inductive Family where
  | tone
  | click
  | scanner
  deriving DecidableEq, Repr

/-- The numeric constants of the resolver and of the period conversion that a model may take as arguments
(R11, D27). -/
structure Constants where
  pwCenter : Nat
  bendDiv : Nat
  refNote : Nat
  refHz : Nat
  semisPerOct : Nat
  tickHz : Nat
  deriving DecidableEq, Repr

/-- The document's constants, which are normative (R11). -/
def documentConstants : Constants :=
  { pwCenter := 8192, bendDiv := 4096, refNote := 69, refHz := 440, semisPerOct := 12, tickHz := 1000000 }

/-- `CC_ALL_SOUND_OFF` (R11). -/
def ccAllSoundOff : Data := 120#7

/-- `CC_ALL_NOTES_OFF` (R11). -/
def ccAllNotesOff : Data := 123#7

/-- `N_CHAN`: the number of channels, the entries of the channel state table (R11, R25). -/
def nChan : Nat := 16

/-- `PW_MAX`: the greatest pitch-wheel value, the greatest of 14 bits (R11, R27). -/
def pwMax : Nat := 16383

/-- `BAUD`, in bit/s (R11). The bit time is out of the model: one `uartBit` turn is one bit time (R7, R120). -/
def baud : Nat := 31250

/-- `N_TONE`: the number of physical units in the tone family (R11, R12). -/
def nTone : Nat := 8

/-- `N_SCAN`: the number of actuator and sensor pairs in the scanner family (R11, R12). -/
def nScan : Nat := 4

/-- The configuration of an engine, fixed when it is built (R9, R10, R12, R37). -/
structure Config where
  /-- `FAMILY` (R12). -/
  family : Family
  /-- `TONE_MAP : 0..15 → (0..7) ∪ none` (R193, D13). -/
  toneMap : Vector (Option (Fin 8)) 16
  /-- `CLICK_CHANNEL` (R193, D14). -/
  clickChannel : Channel
  /-- `CLICK_NOTE_MAP : 0..127 → (0..N_CLICK-1) ∪ none` (R193, D14). -/
  clickNoteMap : Vector (Option Nat) 128
  /-- `N_CLICK` (R12, D14). -/
  nClick : Nat
  /-- `SCANNER_MAP : 0..15 → (0..3) ∪ none` (R193, D15). -/
  scannerMap : Vector (Option (Fin 4)) 16
  /-- `DIR_RESET[0..3]` (R35, D19). -/
  dirReset : Vector Bool 4
  /-- `SENSOR_ACTIVE_HIGH` (R210, D22). -/
  sensorActiveHigh : Bool
  /-- `POLL_PERIOD`, the time between supervisor passes: a parameter on whose value no rule depends (R9, R211). A pass is one `poll`
  turn, and how many stand between two other turns is free. -/
  pollPeriod : Nat
  /-- `QDEPTH`, the depth of each timing peripheral's input queue (R33, D23). -/
  qdepth : Nat
  /-- `UART_PRESENT` (R10, R120, D3). -/
  uartPresent : Bool
  /-- The numeric constants (R11). -/
  constants : Constants
  /-- What reset leaves in `dec.cmd`: the spec gives any value (R23, I4). -/
  cmdReset : Command
  /-- What reset leaves in `dec.chan`: the spec gives any value (R23, I4). -/
  chanReset : Channel
  /-- What reset leaves in `dec.d1`: the spec gives any value (R24, I4). -/
  d1Reset : Data
  deriving DecidableEq, Repr

/-- `N_UNITS` (R12). -/
def Config.nUnits (cfg : Config) : Nat :=
  match cfg.family with
  | .tone => nTone
  | .click => cfg.nClick
  | .scanner => nScan

/-- The units a map names, in the order of its keys. A map is injective exactly when this list has no repeats. -/
def mappedUnits {n : Nat} {α : Type} (m : Vector (Option α) n) : List α := m.toList.filterMap id

/-- The value `resolve` gives where the constants, other than the document's, leave its result outside 16 bits: nothing is known of
it (DESIGN CHOICE, notes/assumptions/13.md). -/
opaque Config.freeHz (k : Constants) (n : Data) (pw : Wheel) : BitVec 16

/-- The period of a frequency where `TICK_HZ`, other than the document's, leaves it outside 32 bits: nothing is known of it (DESIGN
CHOICE, notes/assumptions/13.md). -/
opaque Config.freePeriod (k : Constants) (hz : BitVec 16) : BitVec 32

/-- The constraints on a configuration (R193): no two keys of a map name the same unit; in the tone family eight channels are
mapped, one per unit; a click unit is below `N_CLICK`. A peripheral queue has room for at least one period (R33). -/
abbrev Config.wf (cfg : Config) : Prop :=
  (mappedUnits cfg.toneMap).Nodup ∧
  (cfg.family = .tone → (mappedUnits cfg.toneMap).length = nTone) ∧
  (mappedUnits cfg.clickNoteMap).Nodup ∧
  (∀ u ∈ mappedUnits cfg.clickNoteMap, u < cfg.nClick) ∧
  (mappedUnits cfg.scannerMap).Nodup ∧
  0 < cfg.qdepth

end Sys2Proof
end

