-- ==== Sys2Proof/Syntax.lean ====
section
/-! DEFINITION. The messages of the serial protocol, which are the engine's instructions: one constructor per row of
spec/opcode_table.json (rules R2, R86, R87, R140). -/

namespace Sys2Proof

/-- One message, with its operands in the order they travel (R63, R92). -/
inductive Instr where
  /-- NOTEOFF: channel, note, release velocity (R141). -/
  | noteOff (c : Channel) (note vel : Data)
  /-- NOTEON_V0: channel, note; the velocity byte is 0 (R142). -/
  | noteOnV0 (c : Channel) (note : Data)
  /-- NOTEON: channel, note, nonzero velocity (R143). -/
  | noteOn (c : Channel) (note vel : Data)
  /-- POLYPRESS: channel, note, pressure (R144). -/
  | polyPress (c : Channel) (note pressure : Data)
  /-- CC_ALLSOUNDOFF: channel, value (R148). -/
  | ccAllSoundOff (c : Channel) (val : Data)
  /-- CC_ALLNOTESOFF: channel, value (R149). -/
  | ccAllNotesOff (c : Channel) (val : Data)
  /-- CC: channel, a controller other than 120 and 123, value (R147). -/
  | cc (c : Channel) (ctl val : Data)
  /-- PROGCHG: channel, program; two bytes on the wire (R145). -/
  | progChg (c : Channel) (prog : Data)
  /-- CHANPRESS: channel, pressure; two bytes on the wire (R146). -/
  | chanPress (c : Channel) (pressure : Data)
  /-- PITCHBEND: channel, low 7 bits, high 7 bits (R150). -/
  | pitchBend (c : Channel) (lo hi : Data)
  /-- RESERVED: command 7, its low nibble and its two data fields (R151). -/
  | reserved (s : Channel) (a b : Data)
  deriving DecidableEq, Repr

/-- A message as the decoder emits it: `Msg(cmd, ch, d1, d2)` (R14, R118). -/
structure Msg where
  cmd : Command
  ch : Channel
  d1 : Data
  d2 : Data
  deriving DecidableEq, Repr

end Sys2Proof
end

