-- ==== Sys2Proof/WellFormed.lean ====
section
/-! DEFINITION. The well-formed instructions: the terms the decoder can give (the opcode table's "constraint" entries, rule
R87). Every other bound of an operand is the width of its field. -/

namespace Sys2Proof

/-- NOTEON has a nonzero velocity (velocity 0 is NOTEON_V0), and CC a controller other than 120 and 123 (those are
CC_ALLSOUNDOFF and CC_ALLNOTESOFF) (R87). -/
def Instr.wf : Instr → Bool
  | .noteOff _ _ _ => true
  | .noteOnV0 _ _ => true
  | .noteOn _ _ vel => vel != 0#7
  | .polyPress _ _ _ => true
  | .ccAllSoundOff _ _ => true
  | .ccAllNotesOff _ _ => true
  | .cc _ ctl _ => ctl != Sys2Proof.ccAllSoundOff && ctl != Sys2Proof.ccAllNotesOff
  | .progChg _ _ => true
  | .chanPress _ _ => true
  | .pitchBend _ _ _ => true
  | .reserved _ _ _ => true

end Sys2Proof
end

