-- ==== Sys2Proof/Decode.lean ====
section
/-! DEFINITION. Decoding a message from its bytes, the encoder beside it, and the numbering of spec/opcode_table.json
(rules R81 to R89, R140). The decoder that takes one byte at a time, as the hardware does, is Machine/Decoder.lean. -/

namespace Sys2Proof

/-- The message kind of a decoded message, selected by `cmd` and, for NoteOn and ControlChange, by a data field (R140). -/
def Instr.ofMsg (m : Msg) : Instr :=
  if m.cmd = 0#3 then .noteOff m.ch m.d1 m.d2
  else if m.cmd = 1#3 then
    if m.d2 = 0#7 then .noteOnV0 m.ch m.d1 else .noteOn m.ch m.d1 m.d2
  else if m.cmd = 2#3 then .polyPress m.ch m.d1 m.d2
  else if m.cmd = 3#3 then
    if m.d1 = Sys2Proof.ccAllSoundOff then .ccAllSoundOff m.ch m.d2
    else if m.d1 = Sys2Proof.ccAllNotesOff then .ccAllNotesOff m.ch m.d2
    else .cc m.ch m.d1 m.d2
  else if m.cmd = 4#3 then .progChg m.ch m.d1
  else if m.cmd = 5#3 then .chanPress m.ch m.d1
  else if m.cmd = 6#3 then .pitchBend m.ch m.d1 m.d2
  else .reserved m.ch m.d1 m.d2

/-- Why a list of bytes does not begin with a message. No such list is an error of the hardware: it emits no message for
the span (R89). -/
inductive DecodeError where
  /-- There is no byte. -/
  | noByte
  /-- The first byte is a data byte: it belongs to no message (R117). -/
  | notAStatusByte
  /-- The bytes end inside the message. -/
  | incomplete
  /-- A status byte stands where a data byte is expected: the message is abandoned (R112, R116). -/
  | statusInDataPosition
  deriving DecidableEq, Repr

/-- The length in bytes of a message with this status byte (R84); a data byte opens no message and stands alone. -/
def messageLength (b : Byte) : Nat :=
  if isStatus b then (if takesOneDataByte (commandOf b) then 2 else 3) else 1

/-- The message at the front of a list of bytes, and the bytes after it (R81 to R84). -/
def decode : List Byte → Except DecodeError (Instr × List Byte)
  | [] => .error .noByte
  | b0 :: bs =>
    if isStatus b0 then
      match bs with
      | [] => .error .incomplete
      | b1 :: bs =>
        if isStatus b1 then .error .statusInDataPosition
        else if takesOneDataByte (commandOf b0) then
          .ok (Instr.ofMsg { cmd := commandOf b0, ch := channelOf b0, d1 := payloadOf b1, d2 := 0#7 }, bs)
        else
          match bs with
          | [] => .error .incomplete
          | b2 :: bs =>
            if isStatus b2 then .error .statusInDataPosition
            else .ok (Instr.ofMsg { cmd := commandOf b0, ch := channelOf b0, d1 := payloadOf b1, d2 := payloadOf b2 }, bs)
    else .error .notAStatusByte

/-- The bytes of a message (R81, R86, R92). -/
def encode : Instr → List Byte
  | .noteOff c note vel => [statusByte 0#3 c, dataByte note, dataByte vel]
  | .noteOnV0 c note => [statusByte 1#3 c, dataByte note, dataByte 0#7]
  | .noteOn c note vel => [statusByte 1#3 c, dataByte note, dataByte vel]
  | .polyPress c note p => [statusByte 2#3 c, dataByte note, dataByte p]
  | .ccAllSoundOff c val => [statusByte 3#3 c, dataByte Sys2Proof.ccAllSoundOff, dataByte val]
  | .ccAllNotesOff c val => [statusByte 3#3 c, dataByte Sys2Proof.ccAllNotesOff, dataByte val]
  | .cc c ctl val => [statusByte 3#3 c, dataByte ctl, dataByte val]
  | .progChg c prog => [statusByte 4#3 c, dataByte prog]
  | .chanPress c p => [statusByte 5#3 c, dataByte p]
  | .pitchBend c lo hi => [statusByte 6#3 c, dataByte lo, dataByte hi]
  | .reserved s a b => [statusByte 7#3 s, dataByte a, dataByte b]

/-- The `n` bytes of a word of the opcode table, byte 0 in the word's highest bits: `W = (byte0, byte1, byte2)` (R81). -/
def tableBytes : Nat → Nat → List Byte
  | 0, _ => []
  | n + 1, w => BitVec.ofNat 8 (w >>> (8 * n)) :: tableBytes n w

/-- The bytes of a table word followed by data bytes of zero, for a word shorter than its message (notes/assumptions/15.md). -/
def tableStream (nbits w : Nat) : List Byte := tableBytes (nbits / 8) w ++ [0#8, 0#8]

/-- The instruction the decoder reads from a word numbered as spec/opcode_table.json numbers it. -/
def decodeTableWord (nbits w : Nat) : Option Instr :=
  match decode (tableStream nbits w) with
  | .ok (i, _) => some i
  | .error _ => none

end Sys2Proof
end

