-- ==== Sys2Proof/Machine/Params.lean ====
section
/-! DEFINITION. The configuration State.reset takes. The spec leaves these parameters OPEN (R9); the values are the example
parameters of spec/95_test_vectors.md, which "a model must not take as the hardware's map". DESIGN CHOICE, unsafe
(notes/assumptions/1.md): no statement of this package rests on them, each one holds for every configuration it admits. -/

namespace Sys2Proof.Machine

/-- The example `TONE_MAP`: channels 1, 2, 4, 5, 7, 9, 11, 14 drive units 0 to 7. -/
def exampleToneMap : Vector (Option (Fin 8)) 16 :=
  #v[none, some 0, some 1, none, some 2, some 3, none, some 4, none, some 5, none, some 6, none, none, some 7, none]

/-- The example `CLICK_NOTE_MAP`: note 36 drives unit 0, note 38 unit 1. -/
def exampleClickNoteMap : Vector (Option Nat) 128 :=
  ((Vector.replicate 128 none).set 36 (some 0)).set 38 (some 1)

/-- The example `SCANNER_MAP`: channels 0 to 3 drive units 0 to 3. -/
def exampleScannerMap : Vector (Option (Fin 4)) 16 :=
  #v[some 0, some 1, some 2, some 3, none, none, none, none, none, none, none, none, none, none, none, none]

/-- The example configuration, for a family. `QDEPTH` is deep enough that the examples' periods find room, as the vectors'
"every `lp_ready[u] = 1`" asks. -/
def exampleConfig (family : Family) : Config :=
  { family := family
    toneMap := exampleToneMap
    clickChannel := 9#4
    clickNoteMap := exampleClickNoteMap
    nClick := 2
    scannerMap := exampleScannerMap
    dirReset := #v[false, false, false, false]
    sensorActiveHigh := true
    pollPeriod := 0
    qdepth := 4096
    uartPresent := false
    constants := documentConstants
    cmdReset := 0#3
    chanReset := 0#4
    d1Reset := 0#7 }

/-- The configuration of State.reset: the tone family. -/
def defaultConfig : Config := exampleConfig .tone

end Sys2Proof.Machine
end

