-- ==== Sys2Proof/Machine/State.lean ====
section
/-! DEFINITION. The state of the engine (rules R20 to R35) and, beside it, the plain data of its environment that a step reads:
the input pins, the bytes on offer, the timing peripherals' queues, the order in which the agents move (rules R33, R38, R66,
R264). Also the reset state (R250) and the reasons a step can stop. -/

namespace Sys2Proof.Machine

/-- Where in a message the next byte falls (R22). -/
inductive DecState where
  | idle
  | waitD1
  | waitD2
  deriving DecidableEq, Repr

/-- The decoder registers (R22 to R24). -/
structure Decoder where
  /-- `dec.state` (R22). -/
  state : DecState
  /-- `dec.cmd`, 3 bits (R23). -/
  cmd : Command
  /-- `dec.chan`, 4 bits (R23). -/
  chan : Channel
  /-- `dec.d1`, 7 bits (R24). -/
  d1 : Data
  deriving DecidableEq, Repr

/-- One entry of the channel state table (R25). -/
structure Entry where
  /-- `tbl[c].note`, 7 bits (R26). -/
  note : Data
  /-- `tbl[c].pw`, 14 bits (R27). -/
  pw : Wheel
  /-- `tbl[c].vel`, 8 bits (R28). -/
  vel : BitVec 8
  deriving DecidableEq, Repr

/-- A dispatch key: a channel and a note (R190). -/
structure Key where
  c : Channel
  n : Data
  deriving DecidableEq, Repr

/-- A pending dispatch operation (R32, R195 to R197). -/
inductive Op where
  /-- `SetFrequency(c, n, hz)`; `hz` is 16 bits (R179, R197). -/
  | setFrequency (k : Key) (hz : BitVec 16)
  /-- `Start(c, n)` (R195). -/
  | start (k : Key)
  /-- `Stop(c, n)` (R196). -/
  | stop (k : Key)
  deriving DecidableEq, Repr

/-- One actuator and sensor pair of the Direction Supervisor (R35). -/
structure Pair where
  /-- `dir[i]`, the direction line's level. -/
  dir : Bool
  /-- `latched[i]`, the debounce bit. -/
  latched : Bool
  deriving DecidableEq, Repr

/-- The bit-level UART receiver (R120): between frames, inside the eight data bits, or awaiting the stop bit. -/
inductive UartRx where
  | idle
  /-- The start bit was received, and `n` data bits after it, collected in `got`. -/
  | data (n : Fin 8) (got : Byte)
  /-- All eight data bits were received; the next bit is the stop bit. -/
  | stop (got : Byte)
  deriving DecidableEq, Repr

/-- The UART front end (R120 to R122). -/
structure Uart where
  /-- The frame being received. -/
  rx : UartRx
  /-- The one-byte holding register, empty or holding the byte on offer. -/
  hold : Option Byte
  deriving DecidableEq, Repr

/-- One turn of an agent (R15, R66): a step of the engine, or a step of its environment. The environment's list of turns is
data of the state, so that every interleaving is a value of it (DESIGN CHOICE, notes/assumptions/5.md). -/
inductive Turn where
  /-- The decoder and interpreter context takes its enabled step, if it has one (R66). -/
  | engine
  /-- One pulse of `poll`: a supervisor pass is due (R211). -/
  | poll
  /-- `rst` is asserted (R250). -/
  | rst
  /-- The integrator drives `init_done` (R252, R264). -/
  | initDone (v : Bool)
  /-- The serial sender offers one more byte on the byte interface (R110, R264). -/
  | offer (b : Byte)
  /-- One bit time passes on `uart_rx` with this level (R120). -/
  | uartBit (v : Bool)
  /-- The timing peripheral of unit `u` consumes one entry of its queue (R33, R264). -/
  | drain (u : Nat)
  /-- Sensor `i` drives `sense[i]` (R210, R264). -/
  | sense (i : Fin 4) (v : Bool)
  deriving DecidableEq, Repr

/-- One entry of the output trace (R263; the conventions of spec/95_test_vectors.md). -/
inductive Out where
  /-- A `load_period(u, period)` transfer (R197, R199). -/
  | loadPeriod (u : Nat) (period : BitVec 32)
  /-- A write of `en[u]` (R195, R196). -/
  | enable (u : Nat) (v : Bool)
  /-- An operation whose key has no unit was removed (R194). -/
  | unmapped (op : Op)
  deriving DecidableEq, Repr

/-- The machine. -/
structure State where
  /-- The configuration, which no step changes (R37). -/
  cfg : Config
  /-- The decoder registers (R20.1). -/
  dec : Decoder
  /-- The channel state table `tbl[0..15]` (R20.2). -/
  tbl : Vector Entry 16
  /-- The unit enable bits `en[0..N_UNITS-1]` (R20.3, R31). -/
  en : List Bool
  /-- The pending-operation queue, head first (R20.4, R32). -/
  ops : List Op
  /-- The sticky fault bit (R20.5, R34). -/
  fault : Bool
  /-- The supervisor's pairs, present in the scanner family only (R20.6, R35). -/
  sup : Option (Vector Pair 4)
  /-- The UART front end (R120, R250). -/
  uart : Uart
  /-- The level of the input `init_done` (R38, R252). -/
  initDone : Bool
  /-- The bytes the sender holds at the byte interface, the offered one first (R38, R110; no UART built). -/
  offered : List Byte
  /-- The levels of the inputs `sense[0..3]` (R38, R210; scanner family). -/
  sense : Vector Bool 4
  /-- The timing peripherals' input queues, one per unit, oldest period first (R33; notes/assumptions/12.md). -/
  queues : List (List (BitVec 32))
  /-- The environment's turns to come; when there is none, the engine's context moves (R66). -/
  sched : List Turn
  /-- The output trace so far, oldest first: the model's record of what R263 observes (DESIGN CHOICE, notes/assumptions/17.md). -/
  trace : List Out
  deriving DecidableEq, Repr

/-- Why the machine stops with a fault. -/
inductive Fault where
  /-- A `SetFrequency` of a mapped key is at the head of `ops` with `hz = 0`: the division by zero the spec leaves undefined and
  treats as a fault (I1). Raised by `performSetFrequency`. No reachable state has such an operation (R197, R198). Safe (DEDUCED,
  notes/assumptions/9.md). -/
  | divisionByZero (k : Key)
  deriving DecidableEq, Repr

/-- Why a step has no meaning. -/
inductive Refusal where
  /-- An instruction without a meaning yet. No arm of exec raises it. Safe. -/
  | notModelled (mnemonic : String)
  /-- `init_done` fell after it had risen: outside the engine's contract, and runs with it are to be refused (R252, I14).
  Raised by the turn `initDone false`. Safe (notes/assumptions/6.md). -/
  | initDoneFell
  deriving DecidableEq, Repr

/-- The reset value of a table entry: note 0, pitch wheel 8192, velocity 0 (R26 to R28). -/
def Entry.reset : Entry := { note := 0#7, pw := 8192#14, vel := 0#8 }

/-- The reset value of a pair: the direction line at its parameter `DIR_RESET[i]`, not latched (R35). -/
def Pair.reset (dir : Bool) : Pair := { dir := dir, latched := false }

/-- The machine right after reset, for a configuration (R250). The decoder's registers other than its state take the
configuration's values, since the spec leaves them unspecified (R23, R24; DESIGN CHOICE, notes/assumptions/2.md); `init_done` is low
(R264; DEDUCED, notes/assumptions/6.md); the UART receives no frame (DEDUCED, notes/assumptions/11.md); the environment is quiet, every
peripheral queue empty and every sensor line at 0 (DESIGN CHOICE, notes/assumptions/4.md). -/
def State.resetOf (cfg : Config) : State :=
  { cfg := cfg
    dec := { state := .idle, cmd := cfg.cmdReset, chan := cfg.chanReset, d1 := cfg.d1Reset }
    tbl := Vector.replicate 16 Entry.reset
    en := List.replicate cfg.nUnits false
    ops := []
    fault := false
    sup :=
      match cfg.family with
      | .scanner =>
        some #v[Pair.reset cfg.dirReset[0], Pair.reset cfg.dirReset[1], Pair.reset cfg.dirReset[2], Pair.reset cfg.dirReset[3]]
      | .tone => none
      | .click => none
    uart := { rx := .idle, hold := none }
    initDone := false
    offered := []
    sense := Vector.replicate 4 false
    queues := List.replicate cfg.nUnits []
    sched := []
    trace := [] }

/-- The machine right after reset, in the default configuration (notes/assumptions/1.md). -/
def State.reset : State := State.resetOf defaultConfig

end Sys2Proof.Machine
end

