-- ==== Sys2Proof/Machine/Flags.lean ====
section
/-! DEFINITION. The conditions the engine evaluates. The engine has no condition codes: no message writes a flag as a side effect,
and each condition is evaluated on the spot and not stored (rule R36). -/

namespace Sys2Proof.Machine

/-- `data1` equals the channel's stored note (R141). -/
def noteMatches (e : Entry) (note : Data) : Bool := note == e.note

/-- The supervisor's reading of a limit sensor as asserted (R210). -/
def isTriggered (cfg : Config) (level : Bool) : Bool := level == cfg.sensorActiveHigh

end Sys2Proof.Machine
end

