-- ==== Sys2Proof/Machine/Operands.lean ====
section
/-! DEFINITION. Operand assembly (rules R64, R85). -/

namespace Sys2Proof.Machine

/-- PITCHBEND: `pw = zext_14(data2) << 7 | zext_14(data1)`: the low 7 bits travel first (R64, R85). -/
def wheelOf (lo hi : Data) : Wheel := (hi.zeroExtend 14 <<< 7) ||| lo.zeroExtend 14

/-- NOTEON: the stored velocity is `zext_8(data2)` (R85). -/
def velocityOf (d2 : Data) : BitVec 8 := d2.zeroExtend 8

end Sys2Proof.Machine
end

