-- ==== Sys2Proof/Machine/Resolver.lean ====
section
/-! DEFINITION. The frequency resolver, in the exact integer form of rule R173, and the period conversion of rule R197. -/

namespace Sys2Proof.Machine

/-- `x ^ e` by repeated squaring, for exponents below `2 ^ fuel`: the exponents of R173 are too large for the recursion
that defines the power, and a value must be computable. -/
def powBySquares : Nat → Nat → Nat → Nat
  | 0, _, _ => 1
  | fuel + 1, x, e =>
    if e = 0 then 1
    else if e % 2 = 1 then x * powBySquares fuel (x * x) (e / 2)
    else powBySquares fuel (x * x) (e / 2)

/-- `x ^ e`. -/
def power (x e : Nat) : Nat := powBySquares (e.log2 + 1) x e

/-- `a = BEND_DIV × (n - REF_NOTE) + (pw - PW_CENTER)`, an integer (R173). -/
def bendExponent (k : Constants) (n : Data) (pw : Wheel) : Int :=
  (k.bendDiv : Int) * ((n.toNat : Int) - (k.refNote : Int)) + ((pw.toNat : Int) - (k.pwCenter : Int))

/-- `BEND_DIV × SEMIS_PER_OCT`: 49152 with the document's constants (R173). -/
def stepsPerOctave (k : Constants) : Nat := k.bendDiv * k.semisPerOct

/-- The frequency `m` Hz is not above the exact frequency `REF_HZ × 2 ^ (a / stepsPerOctave)`: the comparison of R173, which uses natural
numbers alone. -/
def notAbove (k : Constants) (a : Int) (m : Nat) : Bool :=
  if 0 ≤ a then
    Nat.ble (power m (stepsPerOctave k)) (power k.refHz (stepsPerOctave k) * power 2 a.toNat)
  else
    Nat.ble (power m (stepsPerOctave k) * power 2 (-a).toNat) (power k.refHz (stepsPerOctave k))

/-- The greatest number of the form `acc + r`, `r < 2 ^ bits`, that meets `p`, for a `p` that holds below every number it
holds of: one bit at a time, the highest first. -/
def greatestFrom (p : Nat → Bool) : Nat → Nat → Nat
  | 0, acc => acc
  | bits + 1, acc =>
    if p (acc + power 2 bits) then greatestFrom p bits (acc + power 2 bits) else greatestFrom p bits acc

/-- `resolve(n, pw)`: the greatest natural `m` with `m ≤ REF_HZ × 2 ^ (a / stepsPerOctave)` (R170, R173), in the 16 bits of R179. With
constants other than the document's whose frequency needs more bits, or whose exponent divides by zero, the spec states no value: a
free value (DESIGN CHOICE, notes/assumptions/13.md). -/
def resolve (k : Constants) (n : Data) (pw : Wheel) : BitVec 16 :=
  if stepsPerOctave k = 0 ∨ notAbove k (bendExponent k n pw) 65536 = true then Config.freeHz k n pw
  else BitVec.ofNat 16 (greatestFrom (notAbove k (bendExponent k n pw)) 16 0)

/-- `period = (TICK_HZ div hz) div 2`, 32 bits (R197). With a `TICK_HZ` other than the document's whose period needs more bits the spec
states no value: a free value (DESIGN CHOICE, notes/assumptions/13.md). -/
def periodOf (k : Constants) (hz : BitVec 16) : BitVec 32 :=
  if k.tickHz / hz.toNat / 2 < 4294967296 then BitVec.ofNat 32 (k.tickHz / hz.toNat / 2) else Config.freePeriod k hz

end Sys2Proof.Machine
end

