-- ==== Sys2Proof/Machine/Ops.lean ====
section
/-! DEFINITION. The named operations on the state: the channel table, the unit maps, the enables and the peripheral queues, the
pending-operation queue, the byte interface, the output ports, and entering the fault state (rules R31 to R34, R60, R61, R110,
R190 to R199, R231). -/

namespace Sys2Proof.Machine

/-- `tbl[c]` (R14, R25, R61). -/
def State.entry (s : State) (c : Channel) : Entry := s.tbl[c.toNat]'(c.isLt)

/-- Replace the entry `tbl[c]`. -/
def State.setEntry (s : State) (c : Channel) (e : Entry) : State := { s with tbl := s.tbl.set c.toNat e (c.isLt) }

/-- `tbl[c].note <- v` (R26). -/
def State.setNote (s : State) (c : Channel) (v : Data) : State := s.setEntry c { s.entry c with note := v }

/-- `tbl[c].pw <- v` (R27). -/
def State.setPw (s : State) (c : Channel) (v : Wheel) : State := s.setEntry c { s.entry c with pw := v }

/-- `tbl[c].vel <- v` (R28). -/
def State.setVel (s : State) (c : Channel) (v : BitVec 8) : State := s.setEntry c { s.entry c with vel := v }

/-- Replace the pending operations (R32). -/
def State.setOps (s : State) (ops : List Op) : State := { s with ops := ops }

/-- Replace the decoder registers (R22 to R24). -/
def State.setDec (s : State) (d : Decoder) : State := { s with dec := d }

/-- `fault <- 1` (R34). -/
def State.setFault (s : State) : State := { s with fault := true }

/-- Replace the supervisor's pairs (R35). -/
def State.setPairs (s : State) (ps : Vector Pair 4) : State := { s with sup := some ps }

/-- `issue Op`: append to the tail of `ops` (R191). -/
def State.issue (s : State) (op : Op) : State := { s with ops := s.ops ++ [op] }

/-- `unit_of(c, n)` (R193). -/
def unitOf (cfg : Config) (k : Key) : Option Nat :=
  match cfg.family with
  | .tone => (cfg.toneMap[k.c.toNat]'(k.c.isLt)).map Fin.val
  | .scanner => (cfg.scannerMap[k.c.toNat]'(k.c.isLt)).map Fin.val
  | .click => if k.c = cfg.clickChannel then cfg.clickNoteMap[k.n.toNat]'(k.n.isLt) else none

/-- The level of the enable line `en[u]` (R31). -/
def State.enabled (s : State) (u : Nat) : Bool := s.en.getD u false

/-- `en[u] <- v` (R31). A unit that does not exist has no bit: nothing is written (notes/assumptions/14.md). -/
def State.setEnable (s : State) (u : Nat) (v : Bool) : State := { s with en := s.en.set u v }

/-- The input queue of unit `u`'s timing peripheral (R33). -/
def State.queue (s : State) (u : Nat) : List (BitVec 32) := s.queues.getD u []

/-- `lp_ready[u]`: the peripheral's queue has room (R33, R38; DEDUCED, notes/assumptions/12.md). -/
def State.lpReady (s : State) (u : Nat) : Bool := decide ((s.queue u).length < s.cfg.qdepth)

/-- Append a period to the queue of unit `u` (R69, R199). -/
def State.enqueue (s : State) (u : Nat) (p : BitVec 32) : State := { s with queues := s.queues.set u (s.queue u ++ [p]) }

/-- The peripheral of unit `u` consumes the oldest entry of its queue, if it has one (R33). -/
def State.dequeue (s : State) (u : Nat) : State := { s with queues := s.queues.set u (s.queue u).tail }

/-- Add an entry to the output trace (R263). -/
def State.record (s : State) (o : Out) : State := { s with trace := s.trace ++ [o] }

/-- `check_freq(c, n, hz)`: the key has a unit and the frequency is zero (R198). -/
def freqInvalid (cfg : Config) (k : Key) (hz : BitVec 16) : Bool := hz == 0#16 && (unitOf cfg k).isSome

/-- `raise InvalidFrequency`: the message has no effect and `fault <- 1` (R231). The state it is given is the one before the
message: no table field is written and nothing is issued. The engine records neither a cause nor the faulting values. It is a next
state, in which the context is halted, not the end of the run (DEDUCED, notes/assumptions/8.md). -/
def raiseInvalidFrequency (s : State) : Host.Outcome State Fault Refusal := .next s.setFault

/-- `rx_ready = init_done ∧ fault = 0 ∧ ops = empty` (R110). -/
def State.rxReady (s : State) : Bool := s.initDone && !s.fault && s.ops.isEmpty

/-- The byte on offer, `rx_valid` and `rx_data`: the UART's holding register where the front end is built, the sender's byte
otherwise (R110, R120). -/
def State.rxData (s : State) : Option Byte := if s.cfg.uartPresent then s.uart.hold else s.offered.head?

/-- The byte on offer is accepted: it is offered no more (R110, R120). -/
def State.acceptByte (s : State) : State :=
  if s.cfg.uartPresent then { s with uart := { s.uart with hold := none } } else { s with offered := s.offered.tail }

/-- The level of the direction line `dir[i]`, an output of the scanner family only (R35, R38). -/
def State.dirLine (s : State) (i : Fin 4) : Option Bool := s.sup.map fun ps => ps[i.val].dir

/-- The unit and period of the `load_period` the context offers: `lp_valid[u]` and `lp_data[u]` (R38, R197, R199). They are held from
the moment the operation is at the head of `ops`, also while `lp_ready[u] = 0`: the spec leaves their level during the wait open (DESIGN
CHOICE, notes/assumptions/19.md). No step reads them. -/
def State.lpOffer (s : State) : Option (Nat × BitVec 32) :=
  if s.fault then none
  else
    match s.ops with
    | .setFrequency k hz :: _ =>
      match unitOf s.cfg k with
      | some u => some (u, periodOf s.cfg.constants hz)
      | none => none
    | .start _ :: _ => none
    | .stop _ :: _ => none
    | [] => none

end Sys2Proof.Machine
end

