-- ==== Sys2Proof/Machine/Bend.lean ====
section
/-! DEFINITION. PITCHBEND (rule R150). -/

namespace Sys2Proof.Machine

/-- PITCHBEND (R150): resolve the stored note with the new bend, check the frequency, store the bend, issue `SetFrequency`;
no `Start`, no `Stop`, whatever the velocity. -/
def execPitchBend (c : Channel) (lo hi : Data) (s : State) : Host.Outcome State Fault Refusal :=
  let pw := wheelOf lo hi
  let k : Key := { c := c, n := (s.entry c).note }
  let hz := resolve s.cfg.constants k.n pw
  if freqInvalid s.cfg k hz then raiseInvalidFrequency s
  else .next ((s.setPw c pw).issue (.setFrequency k hz))

end Sys2Proof.Machine
end

