-- ==== Sys2Proof/Machine/Inert.lean ====
section
/-! DEFINITION. The messages that are accepted and have no effect: POLYPRESS, PROGCHG, CHANPRESS, RESERVED (rules R90, R144 to
R146, R151). -/

namespace Sys2Proof.Machine

/-- A message accepted and executed as a no-op (R90). -/
def noEffect (s : State) : Host.Outcome State Fault Refusal := .next s

/-- POLYPRESS: no effect (R144). -/
def execPolyPress (_c : Channel) (_note _pressure : Data) (s : State) : Host.Outcome State Fault Refusal := noEffect s

/-- PROGCHG: no effect (R145). -/
def execProgChg (_c : Channel) (_prog : Data) (s : State) : Host.Outcome State Fault Refusal := noEffect s

/-- CHANPRESS: no effect (R146). -/
def execChanPress (_c : Channel) (_pressure : Data) (s : State) : Host.Outcome State Fault Refusal := noEffect s

/-- RESERVED: no effect; the low nibble selects nothing (R151). -/
def execReserved (_s : Channel) (_a _b : Data) (s : State) : Host.Outcome State Fault Refusal := noEffect s

end Sys2Proof.Machine
end

