-- ==== Sys2Proof/Machine/Control.lean ====
section
/-! DEFINITION. The control changes: CC, CC_ALLSOUNDOFF, CC_ALLNOTESOFF (rules R147 to R149). -/

namespace Sys2Proof.Machine

/-- Issue `Stop(c, tbl[c].note)`; the table is unchanged (R148, R149). -/
def silenceChannel (c : Channel) (s : State) : State := s.issue (.stop { c := c, n := (s.entry c).note })

/-- CC with a controller other than 120 and 123: no effect (R147). -/
def execCc (_c : Channel) (_ctl _val : Data) (s : State) : Host.Outcome State Fault Refusal := noEffect s

/-- CC_ALLSOUNDOFF (R148). The value is ignored. -/
def execCcAllSoundOff (c : Channel) (_val : Data) (s : State) : Host.Outcome State Fault Refusal :=
  .next (silenceChannel c s)

/-- CC_ALLNOTESOFF (R149). The value is ignored. -/
def execCcAllNotesOff (c : Channel) (_val : Data) (s : State) : Host.Outcome State Fault Refusal :=
  .next (silenceChannel c s)

end Sys2Proof.Machine
end

