-- ==== Sys2Proof/Machine/Note.lean ====
section
/-! DEFINITION. The note messages: NOTEOFF, NOTEON_V0, NOTEON (rules R141 to R143). -/

namespace Sys2Proof.Machine

/-- If `note` is the channel's stored note, clear the velocity and issue `Stop(c, note)`; otherwise no effect (R141). -/
def releaseNote (c : Channel) (note : Data) (s : State) : State :=
  if noteMatches (s.entry c) note then (s.setVel c 0#8).issue (.stop { c := c, n := note }) else s

/-- NOTEOFF (R141). The release velocity is ignored. -/
def execNoteOff (c : Channel) (note _vel : Data) (s : State) : Host.Outcome State Fault Refusal :=
  .next (releaseNote c note s)

/-- NOTEON_V0: executed as NOTEOFF with the same note (R142). -/
def execNoteOnV0 (c : Channel) (note : Data) (s : State) : Host.Outcome State Fault Refusal :=
  .next (releaseNote c note s)

/-- NOTEON (R143): resolve the note with the stored bend, check the frequency, store the note, issue `SetFrequency` and then
`Start`, store the velocity. -/
def execNoteOn (c : Channel) (note vel : Data) (s : State) : Host.Outcome State Fault Refusal :=
  let k : Key := { c := c, n := note }
  let hz := resolve s.cfg.constants note (s.entry c).pw
  if freqInvalid s.cfg k hz then raiseInvalidFrequency s
  else .next ((((s.setNote c note).issue (.setFrequency k hz)).issue (.start k)).setVel c (velocityOf vel))

end Sys2Proof.Machine
end

