-- ==== Sys2Proof/Machine/Dispatch.lean ====
section
/-! DEFINITION. The message step: one meaning per message kind (rule R140). -/

namespace Sys2Proof.Machine

def exec (i : Instr) (s : State) : Host.Outcome State Fault Refusal :=
  match i with
  | .noteOff c note vel => Sys2Proof.Machine.execNoteOff c note vel s
  | .noteOnV0 c note => Sys2Proof.Machine.execNoteOnV0 c note s
  | .noteOn c note vel => Sys2Proof.Machine.execNoteOn c note vel s
  | .polyPress c note pressure => Sys2Proof.Machine.execPolyPress c note pressure s
  | .ccAllSoundOff c val => Sys2Proof.Machine.execCcAllSoundOff c val s
  | .ccAllNotesOff c val => Sys2Proof.Machine.execCcAllNotesOff c val s
  | .cc c ctl val => Sys2Proof.Machine.execCc c ctl val s
  | .progChg c prog => Sys2Proof.Machine.execProgChg c prog s
  | .chanPress c pressure => Sys2Proof.Machine.execChanPress c pressure s
  | .pitchBend c lo hi => Sys2Proof.Machine.execPitchBend c lo hi s
  | .reserved n a b => Sys2Proof.Machine.execReserved n a b s

end Sys2Proof.Machine
end

