-- ==== Sys2Proof/Machine/Decoder.lean ====
section
/-! DEFINITION. The byte-stream decoder, a state machine that takes one byte at a time, and the byte step (rules R110 to
R118). -/

namespace Sys2Proof.Machine

/-- The byte `b` opens a message: the registers take its fields (R111, R112, R116). -/
def openMessage (d : Decoder) (b : Byte) : Decoder :=
  { d with cmd := commandOf b, chan := channelOf b, state := .waitD1 }

/-- The byte step of the decoder: the registers after the byte, and the message the byte completes, if it completes one. One
arm per rule R111 to R117. -/
def decodeByte (d : Decoder) (b : Byte) : Decoder × Option Msg :=
  match d.state, isStatus b with
  | .idle, true => (openMessage d b, none)
  | .waitD1, true => (openMessage d b, none)
  | .waitD1, false =>
    if takesOneDataByte d.cmd then
      ({ d with state := .idle }, some { cmd := d.cmd, ch := d.chan, d1 := payloadOf b, d2 := 0#7 })
    else ({ d with d1 := payloadOf b, state := .waitD2 }, none)
  | .waitD2, false => ({ d with state := .idle }, some { cmd := d.cmd, ch := d.chan, d1 := d.d1, d2 := payloadOf b })
  | .waitD2, true => (openMessage d b, none)
  | .idle, false => (d, none)

/-- The decoder run over a list of bytes: its registers after them, and the messages it emits, in order. -/
def decodeBytes (d : Decoder) : List Byte → Decoder × List Msg
  | [] => (d, [])
  | b :: bs =>
    match decodeByte d b with
    | (d', none) => decodeBytes d' bs
    | (d', some m) =>
      match decodeBytes d' bs with
      | (d'', ms) => (d'', m :: ms)

/-- The byte step: accept the byte `b`, move the decoder, and execute the message the byte completes in the same step
(R110, R118). -/
def byteStep (s : State) (b : Byte) : Host.Outcome State Fault Refusal :=
  match decodeByte s.dec b with
  | (d, none) => .next (s.acceptByte.setDec d)
  | (d, some m) => exec (Instr.ofMsg m) (s.acceptByte.setDec d)

end Sys2Proof.Machine
end

