-- ==== Sys2Proof/Machine/Fetch.lean ====
section
/-! DEFINITION. Placing one message so that the very next step accepts its last byte and executes it: what a sender that has
delivered all the earlier bytes of the message leaves (rules R110 to R118). -/

namespace Sys2Proof.Machine

/-- Put a byte on offer, before those already offered. -/
def State.offerFirst (s : State) (b : Byte) : State :=
  if s.cfg.uartPresent then { s with uart := { s.uart with hold := some b } } else { s with offered := b :: s.offered }

/-- The state in which the bytes of a message but its last have been accepted, the last is on offer, the context is ready for it
(`rx_ready = 1`) and has the next turn. -/
def State.placeMessage (s : State) (bs : List Byte) : State :=
  let n := messageLength (bs.headD 0#8)
  let d := (decodeBytes { s.dec with state := .idle } (bs.take (n - 1))).1
  { s with dec := d, initDone := true, fault := false, ops := [], sched := [] }.offerFirst (bs.getD (n - 1) 0#8)

end Sys2Proof.Machine
end

