-- ==== Sys2Proof/Machine/Actuator.lean ====
section
/-! DEFINITION. The dispatch multiplexer: performing the operations the messages issue, one per step (rules R191 to R197). -/

namespace Sys2Proof.Machine

/-- The operation is removed and changes nothing: its key has no unit (R194). -/
def performUnmapped (op : Op) (rest : List Op) (s : State) : State := (s.setOps rest).record (.unmapped op)

/-- START and STOP: drive the unit's enable to `v` (R195, R196). -/
def performEnable (op : Op) (k : Key) (v : Bool) (rest : List Op) (s : State) : State :=
  match unitOf s.cfg k with
  | none => performUnmapped op rest s
  | some u => ((s.setOps rest).setEnable u v).record (.enable u v)

/-- SETFREQUENCY: hand the period to the unit's timing peripheral, once its queue has room; until then the context waits and
nothing changes (R192, R197). A division by zero is a fault (I1). -/
def performSetFrequency (k : Key) (hz : BitVec 16) (rest : List Op) (s : State) : Host.Outcome State Fault Refusal :=
  match unitOf s.cfg k with
  | none => .next (performUnmapped (.setFrequency k hz) rest s)
  | some u =>
    if hz = 0#16 then .fault (.divisionByZero k)
    else if s.lpReady u then
      .next (((s.setOps rest).enqueue u (periodOf s.cfg.constants hz)).record
        (.loadPeriod u (periodOf s.cfg.constants hz)))
    else .next s

/-- Perform the operation `op` that stood before `rest` at the head of `ops` (R191). -/
def performOp (op : Op) (rest : List Op) (s : State) : Host.Outcome State Fault Refusal :=
  match op with
  | .setFrequency k hz => performSetFrequency k hz rest s
  | .start k => .next (performEnable (.start k) k true rest s)
  | .stop k => .next (performEnable (.stop k) k false rest s)

end Sys2Proof.Machine
end

