-- ==== Sys2Proof/Machine/Supervisor.lean ====
section
/-! DEFINITION. The Direction Supervisor (rules R210 to R217). -/

namespace Sys2Proof.Machine

/-- One pair in one pass, on its own sample (R212 to R215). -/
def passPair (triggered : Bool) (p : Pair) : Pair :=
  match triggered, p.latched with
  | true, false => { dir := !p.dir, latched := true }
  | true, true => p
  | false, _ => { p with latched := false }

/-- One pass over the four pairs (R211, R215). -/
def passPairs (cfg : Config) (sense : Vector Bool 4) (ps : Vector Pair 4) : Vector Pair 4 :=
  #v[passPair (isTriggered cfg sense[0]) ps[0], passPair (isTriggered cfg sense[1]) ps[1],
    passPair (isTriggered cfg sense[2]) ps[2], passPair (isTriggered cfg sense[3]) ps[3]]

/-- A pulse of `poll`: one pass, in the scanner family and once `init_done = 1` (R211). It is held by neither `ops` nor
`fault` (R217). -/
def supervisorPass (s : State) : State :=
  match s.sup with
  | some ps => if s.cfg.family = .scanner ∧ s.initDone then s.setPairs (passPairs s.cfg s.sense ps) else s
  | none => s

end Sys2Proof.Machine
end

