-- ==== Sys2Proof/Machine/Uart.lean ====
section
/-! DEFINITION. The UART front end: frames of one start bit, eight data bits least significant first, one stop bit, and a one-byte
holding register (rules R65, R120 to R122). -/

namespace Sys2Proof.Machine

/-- The data bits collected so far with bit `n` set to `v`: the first one sent is bit 0 (R65). -/
def collectBit (got : Byte) (n : Fin 8) (v : Bool) : Byte := if v then got ||| (1#8 <<< n.val) else got

/-- A frame is complete and its stop bit is `v`. A stop bit of 0 drops the byte (R121); a byte still held is kept and the new one
dropped (R122). After either the receiver awaits a start bit (DEDUCED, notes/assumptions/11.md). -/
def endFrame (u : Uart) (got : Byte) (v : Bool) : Uart :=
  if v then
    match u.hold with
    | none => { rx := .idle, hold := some got }
    | some b => { rx := .idle, hold := some b }
  else { u with rx := .idle }

/-- One bit time on `uart_rx` with level `v` (R120): an idle line is at 1, and a 0 begins a frame (DESIGN CHOICE,
notes/assumptions/11.md). -/
def uartStep (u : Uart) (v : Bool) : Uart :=
  match u.rx with
  | .idle => if v then u else { u with rx := .data 0 0#8 }
  | .data n got =>
    if h : n.val + 1 < 8 then { u with rx := .data ⟨n.val + 1, h⟩ (collectBit got n v) }
    else { u with rx := .stop (collectBit got n v) }
  | .stop got => endFrame u got v

/-- The UART run over the levels of successive bit times. -/
def uartSteps (u : Uart) : List Bool → Uart
  | [] => u
  | v :: vs => uartSteps (uartStep u v) vs

/-- The ten bit times of a byte's frame, as a sender drives them (R120). -/
def frameOf (b : Byte) : List Bool :=
  [false, b.getLsbD 0, b.getLsbD 1, b.getLsbD 2, b.getLsbD 3, b.getLsbD 4, b.getLsbD 5, b.getLsbD 6, b.getLsbD 7, true]

end Sys2Proof.Machine
end

