-- ==== Sys2Proof/Machine/Turns.lean ====
section
/-! DEFINITION. What each turn of an agent does (rules R15, R66, R110, R191, R192, R211, R231, R250, R252). -/

namespace Sys2Proof.Machine

/-- The enabled step of the decoder and interpreter context: none when halted by the fault (R231); the operation at the head of
`ops` (R191); else a byte step when a byte is on offer and `rx_ready = 1` (R110); else the context waits. -/
def engineTurn (s : State) : Host.Outcome State Fault Refusal :=
  if s.fault then .next s
  else
    match s.ops with
    | op :: rest => performOp op rest s
    | [] =>
      match s.rxData with
      | some b => if s.rxReady then byteStep s b else .next s
      | none => .next s

/-- `rst`: every piece of the engine's state takes its reset value, and `init_done` is low again until bring-up is complete
(R250, R264; DEDUCED, notes/assumptions/6.md). The environment's own state stays: the bytes the sender holds, the peripherals' queues,
the sensor levels, the turns to come, the trace of what was observed (DEDUCED, notes/assumptions/7.md). -/
def resetTurn (s : State) : State :=
  { State.resetOf s.cfg with
    offered := s.offered, queues := s.queues, sense := s.sense, sched := s.sched, trace := s.trace }

/-- The integrator drives `init_done`. Its rise says that bring-up is complete, which leaves every peripheral queue empty (R33,
R252; DEDUCED, notes/assumptions/6.md); a fall after the rise is outside the contract (R252, I14). -/
def initDoneTurn (v : Bool) (s : State) : Host.Outcome State Fault Refusal :=
  match s.initDone, v with
  | false, true => .next { s with initDone := true, queues := List.replicate s.cfg.nUnits [] }
  | true, true => .next s
  | false, false => .next s
  | true, false => .refused .initDoneFell

/-- The sender offers one more byte on the byte interface, which is a port only where no UART is built (R38, R120; DEDUCED,
notes/assumptions/14.md). -/
def offerTurn (b : Byte) (s : State) : State :=
  if s.cfg.uartPresent then s else { s with offered := s.offered ++ [b] }

/-- One bit time on `uart_rx`, a port only where the UART is built (R38, R120). -/
def uartTurn (v : Bool) (s : State) : State :=
  if s.cfg.uartPresent then { s with uart := uartStep s.uart v } else s

/-- A sensor drives its line, a port in the scanner family only (R38, R210). -/
def senseTurn (i : Fin 4) (v : Bool) (s : State) : State :=
  if s.cfg.family = .scanner then { s with sense := s.sense.set i v } else s

/-- One turn. -/
def runTurn (t : Turn) (s : State) : Host.Outcome State Fault Refusal :=
  match t with
  | .engine => engineTurn s
  | .poll => .next (supervisorPass s)
  | .rst => .next (resetTurn s)
  | .initDone v => initDoneTurn v s
  | .offer b => .next (offerTurn b s)
  | .uartBit v => .next (uartTurn v s)
  | .drain u => .next (s.dequeue u)
  | .sense i v => .next (senseTurn i v s)

/-- The turn that comes next: the first of the schedule, and the engine's own turn when the environment has scheduled none (DESIGN
CHOICE, notes/assumptions/5.md). -/
def nextTurn (s : State) : Turn := s.sched.headD .engine

/-- The state in which that turn is taken: it is scheduled no more. -/
def State.popTurn (s : State) : State := { s with sched := s.sched.tail }

end Sys2Proof.Machine
end

