-- ==== Sys2Proof/Machine/Step.lean ====
section
/-! DEFINITION. One step of the machine: the next turn of the schedule (rules R15, R66). -/

namespace Sys2Proof.Machine

/-- One step: the agent whose turn it is moves. -/
def step (s : State) : Host.Outcome State Fault Refusal := runTurn (nextTurn s) s.popTurn

/-- `s` with the message of a table word placed where the next step completes and executes it (notes/assumptions/10.md). -/
def State.withFetchWord (s : State) (nbits w : Nat) : State := s.placeMessage (tableStream nbits w)

end Sys2Proof.Machine
end

