-- ==== Sys2Proof/Safety.lean ====
section
/-! DEFINITION. What counts as a correct run, the invariants, and the words the statements are written in (rules R30, R68, R116,
R119, R152, R216, R232, R254, R263). -/

namespace Sys2Proof.Machine

/-- A run that reaches `fault = 1` is a failure (R232). -/
abbrev Safe (s : State) : Prop := s.fault = false

/-- A quiescent point: no byte offered, `ops` empty, `fault = 0` (R263). -/
abbrev Quiescent (s : State) : Prop := s.rxData = none ∧ s.ops = [] ∧ s.fault = false

/-- The next turn is the engine's, and its context accepts a byte: `rx_ready = 1` (R110). -/
abbrev ReadyForByte (s : State) : Prop := nextTurn s = .engine ∧ s.initDone = true ∧ s.fault = false ∧ s.ops = []

/-- The next turn is the engine's, and the operation `op` is at the head of `ops`, before `rest` (R191). -/
abbrev AtOperation (s : State) (op : Op) (rest : List Op) : Prop :=
  nextTurn s = .engine ∧ s.fault = false ∧ s.ops = op :: rest

/-- The bytes of the open message that the decoder registers hold (R22 to R24). -/
def heldBytes (d : Decoder) : List Byte :=
  match d.state with
  | .idle => []
  | .waitD1 => [statusByte d.cmd d.chan]
  | .waitD2 => [statusByte d.cmd d.chan, dataByte d.d1]

/-- The state in which a message is executed: the byte that completed it is accepted and the decoder is idle (R113, R115,
R118). -/
def State.messageAccepted (s : State) : State :=
  s.popTurn.acceptByte.setDec { s.dec with state := .idle }

/-- The key of an operation. -/
def Op.key : Op → Key
  | .setFrequency k _ => k
  | .start k => k
  | .stop k => k

/-- The channel field of a message (R82). -/
def channelField : Instr → Channel
  | .noteOff c _ _ => c
  | .noteOnV0 c _ => c
  | .noteOn c _ _ => c
  | .polyPress c _ _ => c
  | .ccAllSoundOff c _ => c
  | .ccAllNotesOff c _ => c
  | .cc c _ _ => c
  | .progChg c _ => c
  | .chanPress c _ => c
  | .pitchBend c _ _ => c
  | .reserved n _ _ => n

/-- What no message on channel `c` changes: everything but the entry `tbl[c]`, the pending operations and the fault bit (R68,
R72, R152). -/
structure MessageFrame (c : Channel) (s t : State) : Prop where
  cfg : t.cfg = s.cfg
  dec : t.dec = s.dec
  entry : ∀ c', c' ≠ c → t.entry c' = s.entry c'
  en : t.en = s.en
  sup : t.sup = s.sup
  uart : t.uart = s.uart
  initDone : t.initDone = s.initDone
  offered : t.offered = s.offered
  sense : t.sense = s.sense
  queues : t.queues = s.queues
  sched : t.sched = s.sched
  trace : t.trace = s.trace

/-- What performing an operation never changes: everything but the enables, the peripheral queues, the pending operations, the
turns to come and the trace (R72, R195 to R197). -/
structure OperationFrame (s t : State) : Prop where
  cfg : t.cfg = s.cfg
  dec : t.dec = s.dec
  tbl : t.tbl = s.tbl
  fault : t.fault = s.fault
  sup : t.sup = s.sup
  uart : t.uart = s.uart
  initDone : t.initDone = s.initDone
  offered : t.offered = s.offered
  sense : t.sense = s.sense
  sched : t.sched = s.popTurn.sched

/-- What the states of a run keep true (each clause names the rules it comes from). -/
structure StateInv (s : State) : Prop where
  /-- The configuration meets its constraints (R193, R254). -/
  cfg_wf : s.cfg.wf
  /-- One enable bit per unit (R12, R31). -/
  en_length : s.en.length = s.cfg.nUnits
  /-- One peripheral queue per unit (R33). -/
  queues_length : s.queues.length = s.cfg.nUnits
  /-- No queue holds more than `QDEPTH` periods (R33). -/
  queue_bound : ∀ q ∈ s.queues, q.length ≤ s.cfg.qdepth
  /-- `ops` holds at most two entries (R32). -/
  ops_length : s.ops.length ≤ 2
  /-- A pending `SetFrequency` of a mapped key has `hz ≥ 1` (R197, R198). -/
  ops_nonzero : ∀ k hz, Op.setFrequency k hz ∈ s.ops → (unitOf s.cfg k).isSome → hz ≠ 0#16
  /-- The supervisor's bits exist exactly in the scanner family (R35). -/
  sup_family : s.sup.isSome ↔ s.cfg.family = .scanner
  /-- A stored velocity is 0 to 127 (R28). -/
  vel_bound : ∀ c, (s.entry c).vel.toNat < 128
  /-- A one-data-byte command never awaits a second data byte (R113). -/
  waitD2_cmd : s.dec.state = .waitD2 → takesOneDataByte s.dec.cmd = false
  /-- A halted context has performed every operation of earlier messages (R233). -/
  fault_ops : s.fault = true → s.ops = []
  /-- Before `init_done` nothing was accepted and nothing is driven (R252). -/
  before_init : s.initDone = false →
    s.dec.state = .idle ∧ s.ops = [] ∧ s.fault = false ∧ ∀ u, s.enabled u = false

/-- The level of unit `u`'s enable after the operation, from the level before it (R195, R196). -/
def levelAfter (cfg : Config) (u : Nat) (level : Bool) (op : Op) : Bool :=
  match op with
  | .start k => if unitOf cfg k = some u then true else level
  | .stop k => if unitOf cfg k = some u then false else level
  | .setFrequency _ _ => level

/-- The periods that performing the operation appends to unit `u`'s queue (R197). -/
def loadedBy (cfg : Config) (u : Nat) (op : Op) : List (BitVec 32) :=
  match op with
  | .setFrequency k hz => if unitOf cfg k = some u then [periodOf cfg.constants hz] else []
  | .start _ => []
  | .stop _ => []

/-- What is observed of performing the operation: a transfer, an enable write, or the removal of an unmapped operation (R194 to
R197, R263). -/
def observedOf (cfg : Config) (op : Op) : Out :=
  match unitOf cfg op.key with
  | none => .unmapped op
  | some u =>
    match op with
    | .setFrequency _ hz => .loadPeriod u (periodOf cfg.constants hz)
    | .start _ => .enable u true
    | .stop _ => .enable u false

/-- The level `en[u]` will have once the pending operations are performed. -/
def State.enabledAfterOps (s : State) (u : Nat) : Bool := s.ops.foldl (levelAfter s.cfg u) (s.enabled u)

/-- `velocity = 0` implies that the channel's unit is not driven, in the tone and scanner families (R30), once the pending
operations are performed: when `ops` is empty this is the document's invariant itself. -/
def SilentIsUndriven (s : State) : Prop :=
  s.cfg.family ≠ .click → ∀ c u, (s.entry c).vel = 0#8 →
    unitOf s.cfg { c := c, n := (s.entry c).note } = some u → s.enabledAfterOps u = false

/-- The reset values of rule R250, read through the accessors. The decoder's other registers are unspecified (R23, R24) and not
listed. -/
structure HasResetValues (t : State) : Prop where
  decState : t.dec.state = .idle
  entries : ∀ c, t.entry c = { note := 0#7, pw := 8192#14, vel := 0#8 }
  enables : ∀ u, t.enabled u = false
  ops : t.ops = []
  fault : t.fault = false
  pairs : t.cfg.family = .scanner → ∃ ps, t.sup = some ps ∧
    ∀ i : Fin 4, ps[i.val].latched = false ∧ ps[i.val].dir = t.cfg.dirReset[i.val]
  hold : t.uart.hold = none

/-- One pair over successive passes, given the samples' readings (R216). -/
def passesOf (p : Pair) : List Bool → Pair
  | [] => p
  | v :: vs => passesOf (passPair v p) vs

/-- How often the direction line flips over successive passes. -/
def flipsOf (p : Pair) : List Bool → Nat
  | [] => 0
  | v :: vs => (if (passPair v p).dir = p.dir then 0 else 1) + flipsOf (passPair v p) vs

/-- How many maximal runs of triggered readings begin in the list, when `before` is the reading before its first (R216). -/
def runsOf (before : Bool) : List Bool → Nat
  | [] => 0
  | v :: vs => (if v && !before then 1 else 0) + runsOf v vs

/-- Two decoders no byte can tell apart: the registers that an open message uses agree (R23, R24). -/
abbrev DecoderAgrees (d e : Decoder) : Prop :=
  d.state = e.state ∧ (d.state ≠ .idle → d.cmd = e.cmd ∧ d.chan = e.chan) ∧ (d.state = .waitD2 → d.d1 = e.d1)

/-- Two states that differ in unobservable decoder registers alone (R23, R24). -/
abbrev SameButUnusedRegisters (s t : State) : Prop := DecoderAgrees s.dec t.dec ∧ t = { s with dec := t.dec }

end Sys2Proof.Machine
end

