-- ==== Sys2Proof/Certificates/Slice0/Obligations.lean ====
section
/-! DEFINITION. The statements for the provers. They come from the numbered rules of spec/; each docstring names the rules. -/

open Sys2Proof Sys2Proof.Machine

/-! ### Encoding -/

/-- R81 to R86, R92: decoding the bytes of a well-formed message gives the message back, every operand at every value, and
leaves the bytes after it. -/
def Obligations.DecodeOfEncodeReturnsInstruction : Prop :=
  ∀ (i : Instr) (rest : List Byte), i.wf = true → decode (encode i ++ rest) = .ok (i, rest)

/-- The other direction: the decoder accepts nothing but the encodings of well-formed messages. -/
def Obligations.DecodeAcceptsOnlyEncodings : Prop :=
  ∀ (bs : List Byte) (i : Instr) (rest : List Byte), decode bs = .ok (i, rest) → i.wf = true ∧ bs = encode i ++ rest

/-- The byte streams of spec/95_test_vectors.md and R92 decode to the messages they stand for. -/
def Obligations.WrittenOutWordsDecode : Prop :=
  decodeTableWord 24 0x814540 = some (.noteOff 1#4 69#7 64#7) ∧
  decodeTableWord 24 0x914500 = some (.noteOnV0 1#4 69#7) ∧
  decodeTableWord 24 0x91457F = some (.noteOn 1#4 69#7 127#7) ∧
  decodeTableWord 24 0xB97B00 = some (.ccAllNotesOff 9#4 0#7) ∧
  decodeTableWord 16 0xC305 = some (.progChg 3#4 5#7) ∧
  decodeTableWord 24 0xE10050 = some (.pitchBend 1#4 0x00#7 0x50#7) ∧
  decodeTableWord 24 0xF00102 = some (.reserved 0#4 1#7 2#7) ∧
  decodeTableWord 24 0x457F00 = none ∧
  decodeTableWord 24 0x914590 = none

/-- R86, R87, R140: the message kind is selected by the command and, for NoteOn and ControlChange, by a data field. -/
def Obligations.CommandAndDataFieldSelectKind : Prop :=
  ∀ (c : Channel) (d1 d2 : Data),
    Instr.ofMsg ⟨0#3, c, d1, d2⟩ = .noteOff c d1 d2 ∧
    Instr.ofMsg ⟨1#3, c, d1, d2⟩ = (if d2 = 0#7 then .noteOnV0 c d1 else .noteOn c d1 d2) ∧
    Instr.ofMsg ⟨2#3, c, d1, d2⟩ = .polyPress c d1 d2 ∧
    Instr.ofMsg ⟨3#3, c, d1, d2⟩ =
      (if d1 = 120#7 then .ccAllSoundOff c d2 else if d1 = 123#7 then .ccAllNotesOff c d2 else .cc c d1 d2) ∧
    Instr.ofMsg ⟨4#3, c, d1, d2⟩ = .progChg c d1 ∧
    Instr.ofMsg ⟨5#3, c, d1, d2⟩ = .chanPress c d1 ∧
    Instr.ofMsg ⟨6#3, c, d1, d2⟩ = .pitchBend c d1 d2 ∧
    Instr.ofMsg ⟨7#3, c, d1, d2⟩ = .reserved c d1 d2

/-- R64: the pitch-wheel value is `data2` above `data1`, low 7 bits first. -/
def Obligations.PitchWheelLowGroupFirst : Prop :=
  ∀ lo hi : Data, (wheelOf lo hi).toNat = 128 * hi.toNat + lo.toNat

/-! ### The byte-stream decoder -/

/-- R111, R112, R116: in every decoder state a status byte is accepted, abandons what was held without a message, and opens a
new message with its own fields; nothing else changes. -/
def Obligations.StatusByteOpensMessageInEveryState : Prop :=
  ∀ (s : State) (b : Byte), ReadyForByte s → s.rxData = some b → isStatus b = true →
    step s = .next
      (s.popTurn.acceptByte.setDec
        { state := .waitD1, cmd := b.extractLsb' 4 3, chan := b.extractLsb' 0 4, d1 := s.dec.d1 })

/-- R113, R115: the last data byte of a message emits it, with `data2 = 0` where only one is sent, and the message is executed in
the same step with the decoder idle (R118). -/
def Obligations.LastDataByteEmitsMessage : Prop :=
  ∀ (s : State) (b : Byte), ReadyForByte s → s.rxData = some b → isStatus b = false →
    (s.dec.state = .waitD1 → (s.dec.cmd = 4#3 ∨ s.dec.cmd = 5#3) →
      step s = exec (Instr.ofMsg ⟨s.dec.cmd, s.dec.chan, b.extractLsb' 0 7, 0#7⟩) s.messageAccepted) ∧
    (s.dec.state = .waitD2 →
      step s = exec (Instr.ofMsg ⟨s.dec.cmd, s.dec.chan, s.dec.d1, b.extractLsb' 0 7⟩) s.messageAccepted)

/-- R114: the first data byte of a two-data-byte command, the reserved command included, is held and no message emitted. -/
def Obligations.FirstDataByteIsHeld : Prop :=
  ∀ (s : State) (b : Byte), ReadyForByte s → s.rxData = some b → isStatus b = false → s.dec.state = .waitD1 →
    s.dec.cmd ≠ 4#3 → s.dec.cmd ≠ 5#3 →
    step s = .next
      (s.popTurn.acceptByte.setDec
        { state := .waitD2, cmd := s.dec.cmd, chan := s.dec.chan, d1 := b.extractLsb' 0 7 })

/-- R117: a data byte while no message is open is dropped: no register changes. -/
def Obligations.StrayDataByteIsDropped : Prop :=
  ∀ (s : State) (b : Byte), ReadyForByte s → s.rxData = some b → isStatus b = false → s.dec.state = .idle →
    step s = .next s.popTurn.acceptByte

/-- R110: on the engine's turn a byte is accepted exactly when one is on offer and `rx_ready = 1`, that is `init_done ∧ fault = 0
∧ ops = empty`: the oldest byte on offer, and it alone. While `rx_ready = 0` the byte on offer stays on offer and nothing in the
decoder changes; with `ops` empty and no byte to accept the context waits and nothing changes. -/
def Obligations.ByteAcceptedExactlyWhenReady : Prop :=
  ∀ s : State,
    (s.rxReady = true ↔ s.initDone = true ∧ s.fault = false ∧ s.ops = []) ∧
    (∀ b, nextTurn s = .engine → s.rxReady = true → s.rxData = some b → step s = byteStep s.popTurn b) ∧
    (s.cfg.uartPresent = false → s.rxData = s.offered.head? ∧ s.acceptByte = { s with offered := s.offered.tail }) ∧
    (s.cfg.uartPresent = true → s.rxData = s.uart.hold ∧ s.acceptByte = { s with uart := { s.uart with hold := none } }) ∧
    (∀ t, nextTurn s = .engine → s.rxReady = false → step s = .next t → t.rxData = s.rxData ∧ t.dec = s.dec) ∧
    (nextTurn s = .engine → s.ops = [] → s.rxReady = false ∨ s.rxData = none → step s = .next s.popTurn)

/-- When the bytes the decoder holds and the byte on offer decode to a message `i`, the step is `exec i` in the state in
which the byte is accepted and the decoder idle. -/
def Obligations.StepRunsDecodedInstruction : Prop :=
  ∀ (s : State) (b : Byte) (i : Instr), ReadyForByte s → s.rxData = some b →
    decode (heldBytes s.dec ++ [b]) = .ok (i, []) → step s = exec i s.messageAccepted

/-- R119, first part: from any decoder state the bytes of a well-formed message emit exactly that message and leave the decoder
idle. -/
def Obligations.WellFramedMessageEmitsExactlyOne : Prop :=
  ∀ (d : Decoder) (i : Instr), i.wf = true →
    ∃ m, Instr.ofMsg m = i ∧ (decodeBytes d (encode i)).2 = [m] ∧ (decodeBytes d (encode i)).1.state = .idle

/-- R119, second part: a message with a status byte in a data position emits nothing for its span, and the stream's messages are
those of the stream that begins at that status byte. -/
def Obligations.InterruptedMessageEmitsNothing : Prop :=
  ∀ (d : Decoder) (b0 b : Byte) (bs : List Byte), isStatus b0 = true → isStatus b = true →
    (decodeBytes d (b0 :: b :: bs)).2 = (decodeBytes d (b :: bs)).2 ∧
    (∀ x, isStatus x = false → takesOneDataByte (commandOf b0) = false →
      (decodeBytes d (b0 :: x :: b :: bs)).2 = (decodeBytes d (b :: bs)).2)

/-- R23, R24: the registers that no open message uses are not observable: two states that differ in them alone step to states
that differ in them alone, or stop alike. -/
def Obligations.UnusedDecoderRegistersUnobservable : Prop :=
  ∀ s t : State, SameButUnusedRegisters s t →
    (∀ s', step s = .next s' → ∃ t', step t = .next t' ∧ SameButUnusedRegisters s' t') ∧
    (∀ f, step s = .fault f → step t = .fault f) ∧
    (∀ r, step s = .refused r → step t = .refused r)

/-! ### The messages -/

/-- R141: a NOTEOFF of the stored note clears the velocity and issues one `Stop`; a NOTEOFF of any other note has no
effect. -/
def Obligations.NoteOffStopsStoredNoteOnly : Prop :=
  ∀ (s : State) (c : Channel) (note vel : Data),
    (note = (s.entry c).note →
      ∃ t, exec (.noteOff c note vel) s = .next t ∧ t.entry c = { s.entry c with vel := 0#8 } ∧
        t.ops = s.ops ++ [.stop ⟨c, note⟩] ∧ t.fault = s.fault ∧ MessageFrame c s t) ∧
    (note ≠ (s.entry c).note → exec (.noteOff c note vel) s = .next s)

/-- R142: NOTEON with velocity 0 completes in the state NOTEOFF of the same note completes in, whatever release velocity that
carries: of the stored note the velocity is cleared and one `Stop` issued, of another note nothing changes. -/
def Obligations.ZeroVelocityNoteOnActsAsNoteOff : Prop :=
  ∀ (s : State) (c : Channel) (note vel : Data),
    Instr.ofMsg ⟨1#3, c, note, 0#7⟩ = .noteOnV0 c note ∧
    ∃ t, exec (.noteOnV0 c note) s = .next t ∧ exec (.noteOff c note vel) s = .next t ∧ MessageFrame c s t ∧
      (note = (s.entry c).note →
        t.entry c = { s.entry c with vel := 0#8 } ∧ t.ops = s.ops ++ [.stop ⟨c, note⟩] ∧ t.fault = s.fault) ∧
      (note ≠ (s.entry c).note → t = s)

/-- R143: NOTEON stores note and velocity, keeps the bend, and issues `SetFrequency` of the frequency resolved with the stored
bend, then `Start`, where `check_freq` does not raise. Where it does: ZeroFrequencyMessagesOnlyFault. -/
def Obligations.NoteOnStoresAndIssues : Prop :=
  ∀ (s : State) (c : Channel) (note vel : Data) (hz : BitVec 16),
    hz = resolve s.cfg.constants note (s.entry c).pw →
    hz ≠ 0#16 ∨ unitOf s.cfg ⟨c, note⟩ = none →
    ∃ t, exec (.noteOn c note vel) s = .next t ∧
      t.entry c = { note := note, pw := (s.entry c).pw, vel := vel.zeroExtend 8 } ∧
      t.ops = s.ops ++ [.setFrequency ⟨c, note⟩ hz, .start ⟨c, note⟩] ∧ t.fault = s.fault ∧ MessageFrame c s t

/-- R150: PITCHBEND stores the new bend and nothing else of the entry, whatever the velocity, and issues one `SetFrequency`
of the stored note resolved with the new bend, where `check_freq` does not raise. Where it does: ZeroFrequencyMessagesOnlyFault. -/
def Obligations.PitchBendStoresAndReprograms : Prop :=
  ∀ (s : State) (c : Channel) (lo hi : Data) (pw : Wheel) (hz : BitVec 16),
    pw.toNat = 128 * hi.toNat + lo.toNat → hz = resolve s.cfg.constants (s.entry c).note pw →
    hz ≠ 0#16 ∨ unitOf s.cfg ⟨c, (s.entry c).note⟩ = none →
    ∃ t, exec (.pitchBend c lo hi) s = .next t ∧ t.entry c = { s.entry c with pw := pw } ∧
      t.ops = s.ops ++ [.setFrequency ⟨c, (s.entry c).note⟩ hz] ∧ t.fault = s.fault ∧ MessageFrame c s t

/-- `check_freq` (R198) and `raise InvalidFrequency` (R231): a NOTEON or PITCHBEND whose key has a unit and whose frequency is zero sets
the fault bit and changes nothing else. That it is a next state with `fault = 1` and not a fault outcome is the model's reading
(DEDUCED, notes/assumptions/8.md). -/
def Obligations.ZeroFrequencyMessagesOnlyFault : Prop :=
  ∀ (s : State) (c : Channel) (x y : Data),
    (resolve s.cfg.constants x (s.entry c).pw = 0#16 → (unitOf s.cfg ⟨c, x⟩).isSome = true →
      exec (.noteOn c x y) s = .next s.setFault) ∧
    (∀ pw : Wheel, pw.toNat = 128 * y.toNat + x.toNat → resolve s.cfg.constants (s.entry c).note pw = 0#16 →
      (unitOf s.cfg ⟨c, (s.entry c).note⟩).isSome = true → exec (.pitchBend c x y) s = .next s.setFault)

/-- R144 to R147, R151: the messages without effect complete and change nothing, for every operand. -/
def Obligations.InertMessagesChangeNothing : Prop :=
  ∀ (s : State) (c : Channel) (a b : Data),
    exec (.polyPress c a b) s = .next s ∧ exec (.progChg c a) s = .next s ∧ exec (.chanPress c a) s = .next s ∧
    (a ≠ 120#7 → a ≠ 123#7 → exec (.cc c a b) s = .next s) ∧ exec (.reserved c a b) s = .next s

/-- R148, R149: CC 120 and CC 123 issue one `Stop` of the stored note, whatever the velocity, and leave the whole table. -/
def Obligations.ChannelSilencersIssueStopOnly : Prop :=
  ∀ (s : State) (c : Channel) (val : Data) (i : Instr), i = .ccAllSoundOff c val ∨ i = .ccAllNotesOff c val →
    ∃ t, exec i s = .next t ∧ t.ops = s.ops ++ [.stop ⟨c, (s.entry c).note⟩] ∧ t.tbl = s.tbl ∧ t.fault = s.fault ∧
      MessageFrame c s t

/-- R68, R152: every message confines its effects to the table entry of its own channel and to at most two operations, all of
that channel's key; only NOTEON issues two. -/
def Obligations.MessageEffectsConfinedToItsChannel : Prop :=
  ∀ (i : Instr) (s t : State), exec i s = .next t →
    MessageFrame (channelField i) s t ∧
    ∃ issued, t.ops = s.ops ++ issued ∧ issued.length ≤ 2 ∧ (∀ op ∈ issued, op.key.c = channelField i) ∧
      (issued.length = 2 → ∃ note vel, i = .noteOn (channelField i) note vel)

/-- R143, R150, R174: with the document's constants NOTEON and PITCHBEND always complete with their effect: they never enter the
fault state. -/
def Obligations.NotesAndBendsCompleteWithDocumentConstants : Prop :=
  ∀ (s : State) (c : Channel) (x y : Data), s.cfg.constants = documentConstants →
    (∃ t, exec (.noteOn c x y) s = .next t ∧ t.fault = s.fault ∧ (t.entry c).note = x ∧
      t.ops.length = s.ops.length + 2) ∧
    (∃ t, exec (.pitchBend c x y) s = .next t ∧ t.fault = s.fault ∧ (t.entry c).pw = wheelOf x y ∧
      t.ops.length = s.ops.length + 1)

/-! ### The resolver -/

/-- The exact integer form of spec/42_resolver.md section 1, which the spec derives: with the document's constants `resolve` is
the greatest natural `m` with `m^49152 ≤ 440^49152 × 2^a` where `a ≥ 0`, and with `m^49152 × 2^(-a) ≤ 440^49152` where `a < 0`. -/
def Obligations.ResolveIsGreatestNotAboveExact : Prop :=
  ∀ (n : Data) (pw : Wheel) (a : Int), a = 4096 * ((n.toNat : Int) - 69) + (pw.toNat : Int) - 8192 →
    ∀ m : Nat,
      (0 ≤ a → (m ≤ (resolve documentConstants n pw).toNat ↔ m ^ 49152 ≤ 440 ^ 49152 * 2 ^ a.toNat)) ∧
      (a < 0 → (m ≤ (resolve documentConstants n pw).toNat ↔ m ^ 49152 * 2 ^ (-a).toNat ≤ 440 ^ 49152))

/-- R170, R172: with the document's constants `resolve(n, pw)` is the floor of the real number
`440 × 2^((n + (pw - 8192) / 4096 - 69) / 12)`. -/
def Obligations.ResolveIsFloorOfRealFormula : Prop :=
  ∀ (n : Data) (pw : Wheel),
    ((resolve documentConstants n pw).toNat : Int) =
      ⌊(440 : ℝ) * (2 : ℝ) ^ ((((n.toNat : ℝ) + ((pw.toNat : ℝ) - 8192) / 4096) - 69) / 12)⌋

/-- What the spec derives in spec/42_resolver.md section 2: the range of `resolve` with the document's constants, its two ends,
and exactly where it is 7. -/
def Obligations.ResolveRangeIsSevenToFourteenThousand : Prop :=
  (∀ (n : Data) (pw : Wheel),
    7 ≤ (resolve documentConstants n pw).toNat ∧ (resolve documentConstants n pw).toNat ≤ 14079 ∧
    ((resolve documentConstants n pw).toNat = 7 ↔
      4096 * ((n.toNat : Int) - 69) + (pw.toNat : Int) - 8192 ≤ -284166)) ∧
  (resolve documentConstants 0#7 0#14).toNat = 7 ∧ (resolve documentConstants 127#7 16383#14).toNat = 14079

/-- What the spec derives in spec/42_resolver.md section 2: `resolve` is non-decreasing in `a`, hence in the note for a fixed bend
and in the bend for a fixed note. -/
def Obligations.ResolveIsMonotone : Prop :=
  ∀ (n n' : Data) (pw pw' : Wheel),
    4096 * ((n.toNat : Int) - 69) + (pw.toNat : Int) - 8192 ≤ 4096 * ((n'.toNat : Int) - 69) + (pw'.toNat : Int) - 8192 →
    (resolve documentConstants n pw).toNat ≤ (resolve documentConstants n' pw').toNat

/-- Worked values of spec/42_resolver.md section 2: the reference pitch exactly, from each note that reaches it; the two full
bends of note 69; the closest approach to an integer, where binary32 arithmetic would differ. -/
def Obligations.ResolveWorkedValues : Prop :=
  resolve documentConstants 69#7 8192#14 = 440#16 ∧ resolve documentConstants 68#7 12288#14 = 440#16 ∧
  resolve documentConstants 70#7 4096#14 = 440#16 ∧ resolve documentConstants 71#7 0#14 = 440#16 ∧
  resolve documentConstants 69#7 0#14 = 391#16 ∧ resolve documentConstants 69#7 16383#14 = 493#16 ∧
  resolve documentConstants 81#7 15170#14 = 971#16 ∧ resolve documentConstants 26#7 16033#14 = 40#16

/-- R197: the period of every nonzero frequency is `500000 div hz`, and of every frequency the resolver gives it lies between 35 and
71428. -/
def Obligations.PeriodIsHalfMillionOverFrequency : Prop :=
  (∀ hz : BitVec 16, hz ≠ 0#16 → (periodOf documentConstants hz).toNat = 500000 / hz.toNat) ∧
  (∀ (n : Data) (pw : Wheel), 35 ≤ (periodOf documentConstants (resolve documentConstants n pw)).toNat ∧
    (periodOf documentConstants (resolve documentConstants n pw)).toNat ≤ 71428)

/-! ### The dispatch multiplexer -/

/-- R195, R196: performing `Start` or `Stop` of a mapped key removes it and drives that unit's enable to 1 or 0; every other
enable, every peripheral queue and all else stay. Of a key without a unit it changes no enable. -/
def Obligations.StartAndStopDriveOneEnable : Prop :=
  ∀ (s : State) (k : Key) (op : Op) (v : Bool) (rest : List Op),
    (op = .start k ∧ v = true) ∨ (op = .stop k ∧ v = false) → AtOperation s op rest →
    (∀ u, unitOf s.cfg k = some u → u < s.en.length →
      ∃ t, step s = .next t ∧ t.enabled u = v ∧ (∀ u', u' ≠ u → t.enabled u' = s.enabled u') ∧ t.ops = rest ∧
        t.queues = s.queues ∧ t.trace = s.trace ++ [.enable u v] ∧ OperationFrame s t) ∧
    (unitOf s.cfg k = none →
      ∃ t, step s = .next t ∧ t.ops = rest ∧ t.en = s.en ∧ t.queues = s.queues ∧ OperationFrame s t)

/-- R192, R197: performing `SetFrequency` of a mapped key with `hz ≥ 1` loads `(TICK_HZ div hz) div 2`, a value of 32 bits, into that
unit's peripheral once its queue has room, changing no enable; until then nothing changes. Of a key without a unit it loads
nothing. -/
def Obligations.SetFrequencyLoadsPeriodOrWaits : Prop :=
  ∀ (s : State) (k : Key) (hz : BitVec 16) (rest : List Op), AtOperation s (.setFrequency k hz) rest →
    (∀ u, unitOf s.cfg k = some u → u < s.queues.length → hz ≠ 0#16 →
      (s.lpReady u = true →
        ∃ t p, step s = .next t ∧
          (s.cfg.constants.tickHz / hz.toNat / 2 < 2 ^ 32 → p.toNat = s.cfg.constants.tickHz / hz.toNat / 2) ∧
          t.queue u = s.queue u ++ [p] ∧ (∀ u', u' ≠ u → t.queue u' = s.queue u') ∧ t.ops = rest ∧ t.en = s.en ∧
          t.trace = s.trace ++ [.loadPeriod u p] ∧ OperationFrame s t) ∧
      (s.lpReady u = false → step s = .next s.popTurn)) ∧
    (unitOf s.cfg k = none →
      ∃ t, step s = .next t ∧ t.ops = rest ∧ t.en = s.en ∧ t.queues = s.queues ∧ OperationFrame s t)

/-- I1: performing a `SetFrequency` of a mapped key with `hz = 0`, which no reachable state holds, is a division by zero and ends in the
fault of that name. That it ends the run is the model's reading (DEDUCED, notes/assumptions/9.md). -/
def Obligations.ZeroFrequencyOperationFaults : Prop :=
  ∀ (s : State) (k : Key) (rest : List Op), AtOperation s (.setFrequency k 0#16) rest → (unitOf s.cfg k).isSome = true →
    step s = .fault (.divisionByZero k)

/-- R194: an operation on a key without a unit is removed and changes nothing: no enable, no peripheral, no fault. -/
def Obligations.UnmappedOperationIsInert : Prop :=
  ∀ (s : State) (op : Op) (rest : List Op), AtOperation s op rest → unitOf s.cfg op.key = none →
    ∃ t, step s = .next t ∧ t.ops = rest ∧ t.en = s.en ∧ t.queues = s.queues ∧
      t.trace = s.trace ++ [.unmapped op] ∧ OperationFrame s t

/-- R193: under the constraints on the maps, two keys with the same unit are one dispatch key (the same channel, and in the click
family the reserved channel and the same note), and every unit a key resolves to exists. -/
def Obligations.UnitMapIsInjective : Prop :=
  ∀ (cfg : Config) (k k' : Key) (u : Nat), cfg.wf → unitOf cfg k = some u → unitOf cfg k' = some u →
    k.c = k'.c ∧ (cfg.family = .click → k.n = k'.n ∧ k.c = cfg.clickChannel) ∧ u < cfg.nUnits

/-- R71, R191, R192: while an operation is pending the engine's turn accepts no byte and executes no message: it performs the head
operation, with its effect on every enable and every peripheral queue, and removes it; only a halted context, and a `SetFrequency`
whose unit's queue is full, waits. -/
def Obligations.PendingOperationsPrecedeBytes : Prop :=
  ∀ (s t : State) (op : Op) (rest : List Op), nextTurn s = .engine → s.ops = op :: rest → step s = .next t →
    (t.dec = s.dec ∧ t.tbl = s.tbl ∧ t.offered = s.offered ∧ t.uart = s.uart ∧ t.fault = s.fault) ∧
    (s.fault = false →
      (∀ k hz u, op = .setFrequency k hz → unitOf s.cfg k = some u → s.lpReady u = true) →
      t.ops = rest ∧ t.trace = s.trace ++ [observedOf s.cfg op] ∧
        (∀ u, u < s.en.length → t.enabled u = levelAfter s.cfg u (s.enabled u) op) ∧
        (∀ u, u < s.queues.length → t.queue u = s.queue u ++ loadedBy s.cfg u op)) ∧
    ((s.fault = true ∨ ∃ k hz u, op = .setFrequency k hz ∧ unitOf s.cfg k = some u ∧ s.lpReady u = false) → t = s.popTurn)

/-- R199: a `load_period` offered on a unit's port is transferred exactly when `lp_valid ∧ lp_ready`, and held otherwise. That it is
offered during the wait as well is the model's choice (DESIGN CHOICE, notes/assumptions/19.md). -/
def Obligations.PeriodPortTransfersWhenValidAndReady : Prop :=
  ∀ (s : State) (u : Nat) (p : BitVec 32), StateInv s → nextTurn s = .engine → s.lpOffer = some (u, p) →
    ∃ t, step s = .next t ∧
      (s.lpReady u = true → t.queue u = s.queue u ++ [p] ∧ t.ops = s.ops.tail) ∧
      (s.lpReady u = false → t = s.popTurn)

/-- R33, R256: when a peripheral drains one entry, its port has room. When a queue is full is the model's reading (DEDUCED,
notes/assumptions/12.md). -/
def Obligations.DrainGivesRoom : Prop :=
  ∀ (s : State) (u : Nat), StateInv s → nextTurn s = .drain u → u < s.cfg.nUnits →
    ∃ t, step s = .next t ∧ t.lpReady u = true ∧ t.queue u = (s.queue u).tail ∧ t.ops = s.ops ∧ t.en = s.en

/-- The document's end-to-end property (spec/95_test_vectors.md S9), for every channel, note, velocity and bend: the last byte of a
NOTEON on a mapped unit whose queue has room, and the two operations after it, program the resolved frequency's period, then
assert the enable, and leave the engine ready for the next byte. That the engine moves
when no turn is scheduled is the model's choice (notes/assumptions/5.md). -/
def Obligations.NoteOnReachesItsUnitInThreeSteps : Prop :=
  ∀ (s : State) (b : Byte) (c : Channel) (note vel : Data) (u : Nat) (hz : BitVec 16),
    StateInv s → s.sched = [] → ReadyForByte s → s.rxData = some b →
    decode (heldBytes s.dec ++ [b]) = .ok (.noteOn c note vel, []) → unitOf s.cfg ⟨c, note⟩ = some u →
    hz = resolve s.cfg.constants note (s.entry c).pw → hz ≠ 0#16 → s.lpReady u = true →
    ∃ t, Sys2Proof.core.run 3 s = .next t ∧ t.enabled u = true ∧
      t.queue u = s.queue u ++ [periodOf s.cfg.constants hz] ∧
      t.trace = s.trace ++ [.loadPeriod u (periodOf s.cfg.constants hz), .enable u true] ∧
      t.entry c = { note := note, pw := (s.entry c).pw, vel := vel.zeroExtend 8 } ∧ t.rxReady = true

/-! ### The Direction Supervisor -/

/-- What spec/44_supervisor.md gives one pass: every pair on its own sample: triggered and not latched flips the direction and latches;
not triggered unlatches. Nothing but the pairs changes. That triggered and latched changes nothing is the spec's own inference
("Neither rule of the document applies, so nothing changes"). -/
def Obligations.PassFollowsTheTable : Prop :=
  ∀ (s : State) (ps : Vector Pair 4), nextTurn s = .poll → s.cfg.family = .scanner → s.initDone = true →
    s.sup = some ps →
    ∃ qs : Vector Pair 4, step s = .next (s.popTurn.setPairs qs) ∧
      ∀ i : Fin 4,
        (s.sense[i.val] = s.cfg.sensorActiveHigh → ps[i.val].latched = false →
          qs[i.val] = { dir := !ps[i.val].dir, latched := true }) ∧
        (s.sense[i.val] = s.cfg.sensorActiveHigh → ps[i.val].latched = true → qs[i.val] = ps[i.val]) ∧
        (s.sense[i.val] ≠ s.cfg.sensorActiveHigh → qs[i.val] = { dir := ps[i.val].dir, latched := false })

/-- R211: a pulse of `poll` makes no pass outside the scanner family or before `init_done`. -/
def Obligations.NoPassElsewhere : Prop :=
  ∀ s : State, nextTurn s = .poll → (s.cfg.family ≠ .scanner ∨ s.initDone = false) → step s = .next s.popTurn

/-- R216: over any sequence of readings, from an unlatched pair, the direction flips once for each maximal run of triggered
readings, and its final level is the first one flipped that often. -/
def Obligations.OneFlipPerTriggeredRun : Prop :=
  ∀ (p : Pair) (readings : List Bool), p.latched = false →
    flipsOf p readings = runsOf false readings ∧
    (passesOf p readings).dir = (if runsOf false readings % 2 = 1 then !p.dir else p.dir)

/-- R29, R31, R35, R72, R217: who writes what. A `poll` turn changes the supervisor's pairs alone; every other turn but `rst` leaves
them; and no turn but the engine's own and `rst` changes the decoder, the channel table, the enables, the pending
operations or the fault bit, or makes a `load_period` transfer. The inputs (R38, R70, R264): a byte the sender offers goes behind those
already on offer, which only the engine takes, the oldest first; a sensor drives its own line alone. That these turns change nothing
where the build does not have the port is the model's reading (DEDUCED, notes/assumptions/14.md). -/
def Obligations.EachLineHasOneWriter : Prop :=
  ∀ s : State,
    (∀ b, nextTurn s = .offer b →
      (s.cfg.uartPresent = false → step s = .next { s.popTurn with offered := s.offered ++ [b] }) ∧
      (s.cfg.uartPresent = true → step s = .next s.popTurn)) ∧
    (∀ i v, nextTurn s = .sense i v →
      (s.cfg.family = .scanner → ∃ t, step s = .next t ∧ t = { s.popTurn with sense := t.sense } ∧
        ∀ j : Fin 4, t.sense[j.val] = if j = i then v else s.sense[j.val]) ∧
      (s.cfg.family ≠ .scanner → step s = .next s.popTurn)) ∧
    ∀ t, step s = .next t →
      (nextTurn s = .poll → t = { s.popTurn with sup := t.sup }) ∧
      (nextTurn s ≠ .poll → nextTurn s ≠ .rst → t.sup = s.sup) ∧
      (nextTurn s ≠ .engine → nextTurn s ≠ .rst →
        t.dec = s.dec ∧ t.tbl = s.tbl ∧ t.en = s.en ∧ t.ops = s.ops ∧ t.fault = s.fault ∧ t.trace = s.trace) ∧
      ((∀ b, nextTurn s ≠ .offer b) → t.offered = s.offered ∨ nextTurn s = .engine ∧ t.offered = s.offered.tail) ∧
      ((∀ i v, nextTurn s ≠ .sense i v) → t.sense = s.sense)

/-- R72, R235: the order of a supervisor pass and a step of the other context is never observable. -/
def Obligations.PassAndEngineStepCommute : Prop :=
  ∀ (s : State) (rest : List Turn),
    Sys2Proof.core.run 2 { s with sched := .poll :: .engine :: rest } =
      Sys2Proof.core.run 2 { s with sched := .engine :: .poll :: rest }

/-! ### Faults -/

/-- R34, R232: the fault bit is never cleared by a step other than reset. -/
def Obligations.FaultIsStickyUntilReset : Prop :=
  ∀ s t : State, step s = .next t → s.fault = true → nextTurn s ≠ .rst → t.fault = true

/-- R231: a halted context takes no step: no byte is accepted, no message executed, no operation performed. -/
def Obligations.HaltedContextTakesNoStep : Prop :=
  ∀ s : State, s.fault = true → s.rxReady = false ∧ (nextTurn s = .engine → step s = .next s.popTurn)

/-- R231, R233: a step that raises the fault is a byte step that completed a NOTEON or PITCHBEND, and but for accepting that byte it
changes nothing else: the channel table, the enables and the empty operation queue are what the messages before it left. That the
byte is accepted and the decoder idle is the model's reading (DEDUCED, notes/assumptions/8.md). -/
def Obligations.FaultIsPrecise : Prop :=
  ∀ s t : State, step s = .next t → s.fault = false → t.fault = true →
    ReadyForByte s ∧ t = s.messageAccepted.setFault ∧
    ∃ b i, s.rxData = some b ∧ decode (heldBytes s.dec ++ [b]) = .ok (i, []) ∧
      ((∃ c note vel, i = .noteOn c note vel) ∨ (∃ c lo hi, i = .pitchBend c lo hi))

/-- R174, R231, R257: with the document's constants no step raises the fault. -/
def Obligations.NoFaultWithDocumentConstants : Prop :=
  ∀ s t : State, s.cfg.constants = documentConstants → step s = .next t → Safe s → Safe t

/-! ### Reset and start -/

/-- R250: reset leaves the values the spec gives, from every state, whatever was pending, for every configuration, and after it the
engine waits for `init_done`. -/
def Obligations.ResetGivesResetValues : Prop :=
  (∀ cfg : Config, HasResetValues (State.resetOf cfg) ∧ (State.resetOf cfg).cfg = cfg) ∧
  (∀ s : State, nextTurn s = .rst → ∃ t, step s = .next t ∧ HasResetValues t ∧ t.cfg = s.cfg ∧
    (t.initDone = false → t.rxReady = false))

/-- R252: while `init_done = 0` no step accepts a byte, loads a period or drives an enable. -/
def Obligations.NothingPrecedesInitDone : Prop :=
  ∀ s t : State, StateInv s → s.initDone = false → step s = .next t →
    t.trace = s.trace ∧ t.ops = [] ∧ t.dec.state = .idle ∧ (∀ u, t.enabled u = false) ∧
      (nextTurn s = .engine → t = s.popTurn)

/-- R33, R252, I14: the rise of `init_done` starts operation with every peripheral queue empty, and a fall after it is refused by
name. That the rise empties the queues is the model's reading
(DEDUCED, notes/assumptions/6.md). -/
def Obligations.InitDoneRisesOnce : Prop :=
  ∀ (s : State) (v : Bool), nextTurn s = .initDone v →
    (s.initDone = false → v = true → ∃ t, step s = .next t ∧ t.initDone = true ∧ (∀ u, t.queue u = []) ∧
      t.tbl = s.tbl ∧ t.en = s.en ∧ t.ops = s.ops) ∧
    (s.initDone = true → v = true → step s = .next s.popTurn) ∧
    (s.initDone = true → v = false → step s = .refused .initDoneFell)

/-- R37: no step changes the configuration. -/
def Obligations.ConfigurationIsFixed : Prop :=
  ∀ s t : State, step s = .next t → t.cfg = s.cfg

/-! ### Invariants -/

/-- The invariant holds at reset, for every configuration that meets its constraints. -/
def Obligations.InvHoldsAtReset : Prop :=
  ∀ cfg : Config, cfg.wf → StateInv (State.resetOf cfg)

/-- Every step keeps the invariant, from every state that meets it. -/
def Obligations.StepKeepsInv : Prop :=
  ∀ s t : State, StateInv s → step s = .next t → StateInv t

/-- From every state that meets the invariant a step answers a next state, unless `init_done` falls against its contract. -/
def Obligations.StepNeverStopsFromInv : Prop :=
  ∀ s : State, StateInv s → nextTurn s ≠ .initDone false → ∃ t, step s = .next t

/-- R30 at reset. -/
def Obligations.SilentIsUndrivenAtReset : Prop :=
  ∀ cfg : Config, SilentIsUndriven (State.resetOf cfg)

/-- R30: every step keeps "velocity 0 implies the channel's unit is not driven" in the tone and scanner families, from every state
in which it holds of the levels the pending operations will leave. -/
def Obligations.StepKeepsSilentIsUndriven : Prop :=
  ∀ s t : State, s.cfg.wf → SilentIsUndriven s → step s = .next t → SilentIsUndriven t

/-- R30: at every state with no operation pending, the invariant is the document's own. -/
def Obligations.SilentChannelUndrivenWhenNothingPending : Prop :=
  ∀ (s : State) (c : Channel) (u : Nat), SilentIsUndriven s → s.ops = [] → s.cfg.family ≠ .click →
    (s.entry c).vel = 0#8 → unitOf s.cfg ⟨c, (s.entry c).note⟩ = some u → s.enabled u = false

/-! ### The UART front end -/

/-- R65, R120: ten bit times of a frame (start bit 0, eight data bits least significant first, stop bit 1) put the byte into the
empty holding register, where it is on offer. The frame is the spec's from general knowledge; one turn per bit time is the model's
(DESIGN CHOICE, notes/assumptions/11.md). -/
def Obligations.UartFrameDeliversByte : Prop :=
  ∀ (s : State) (b : Byte) (rest : List Turn), s.cfg.uartPresent = true → s.uart = { rx := .idle, hold := none } →
    s.sched = (frameOf b).map .uartBit ++ rest →
    ∃ t, Sys2Proof.core.run 10 s = .next t ∧ t.rxData = some b ∧
      t = { s with uart := { rx := .idle, hold := some b }, sched := rest }

/-- R122: a frame that completes while a byte is held is dropped, and the held byte kept. One turn per bit time is the model's
(DESIGN CHOICE, notes/assumptions/11.md). -/
def Obligations.UartOverrunKeepsHeldByte : Prop :=
  ∀ (s : State) (b held : Byte) (rest : List Turn), s.cfg.uartPresent = true →
    s.uart = { rx := .idle, hold := some held } → s.sched = (frameOf b).map .uartBit ++ rest →
    Sys2Proof.core.run 10 s = .next { s with sched := rest }

/-- R121: a frame whose stop bit is 0 is dropped, and nothing records it. That the receiver then awaits a start bit is the model's
(DEDUCED, notes/assumptions/11.md). -/
def Obligations.UartBadStopBitDropsByte : Prop :=
  ∀ (s : State) (b : Byte) (rest : List Turn), s.cfg.uartPresent = true → s.uart.rx = .idle →
    s.sched = ((frameOf b).take 9 ++ [false]).map .uartBit ++ rest →
    Sys2Proof.core.run 10 s = .next { s with sched := rest }
end

