-- ==== Sys2Proof/Laws/Decode.lean ====
section
/-! SUPPORT. The bit fields of the bytes a message is made of, and the message kinds they select. -/

namespace Sys2Proof

@[simp] theorem isStatus_statusByte (cmd : Command) (c : Channel) : isStatus (statusByte cmd c) = true := by
  revert cmd c; decide

@[simp] theorem commandOf_statusByte (cmd : Command) (c : Channel) : commandOf (statusByte cmd c) = cmd := by
  revert cmd c; decide

@[simp] theorem channelOf_statusByte (cmd : Command) (c : Channel) : channelOf (statusByte cmd c) = c := by
  revert cmd c; decide

@[simp] theorem isStatus_dataByte (d : Data) : isStatus (dataByte d) = false := by
  revert d; decide

@[simp] theorem payloadOf_dataByte (d : Data) : payloadOf (dataByte d) = d := by
  revert d; decide

/-- A status byte is nothing but its two fields (R82). -/
theorem statusByte_of_isStatus {b : Byte} : isStatus b = true → statusByte (commandOf b) (channelOf b) = b := by
  revert b; decide

/-- A data byte is nothing but its payload (R83). -/
theorem dataByte_of_not_isStatus {b : Byte} : isStatus b = false → dataByte (payloadOf b) = b := by
  revert b; decide

/-- Every message the decoder can emit is a well-formed instruction (R87). -/
theorem Instr.ofMsg_wf (m : Msg) : (Instr.ofMsg m).wf = true := by
  unfold Instr.ofMsg
  repeat' split
  all_goals simp_all [Instr.wf]

end Sys2Proof
end

