-- ==== Sys2Proof/Laws/State.lean ====
section
/-! SUPPORT. One lemma per field and update of the state, and the laws of reading what was written. -/

namespace Sys2Proof.Machine

variable (s : State)

/-! ### setEntry -/

@[simp] theorem State.setEntry_cfg (c : Channel) (e : Entry) : (s.setEntry c e).cfg = s.cfg := rfl
@[simp] theorem State.setEntry_dec (c : Channel) (e : Entry) : (s.setEntry c e).dec = s.dec := rfl
@[simp] theorem State.setEntry_tbl (c : Channel) (e : Entry) : (s.setEntry c e).tbl = s.tbl.set c.toNat e c.isLt := rfl
@[simp] theorem State.setEntry_en (c : Channel) (e : Entry) : (s.setEntry c e).en = s.en := rfl
@[simp] theorem State.setEntry_ops (c : Channel) (e : Entry) : (s.setEntry c e).ops = s.ops := rfl
@[simp] theorem State.setEntry_fault (c : Channel) (e : Entry) : (s.setEntry c e).fault = s.fault := rfl
@[simp] theorem State.setEntry_sup (c : Channel) (e : Entry) : (s.setEntry c e).sup = s.sup := rfl
@[simp] theorem State.setEntry_uart (c : Channel) (e : Entry) : (s.setEntry c e).uart = s.uart := rfl
@[simp] theorem State.setEntry_initDone (c : Channel) (e : Entry) : (s.setEntry c e).initDone = s.initDone := rfl
@[simp] theorem State.setEntry_offered (c : Channel) (e : Entry) : (s.setEntry c e).offered = s.offered := rfl
@[simp] theorem State.setEntry_sense (c : Channel) (e : Entry) : (s.setEntry c e).sense = s.sense := rfl
@[simp] theorem State.setEntry_queues (c : Channel) (e : Entry) : (s.setEntry c e).queues = s.queues := rfl
@[simp] theorem State.setEntry_sched (c : Channel) (e : Entry) : (s.setEntry c e).sched = s.sched := rfl
@[simp] theorem State.setEntry_trace (c : Channel) (e : Entry) : (s.setEntry c e).trace = s.trace := rfl

/-! ### setNote -/

@[simp] theorem State.setNote_cfg (c : Channel) (v : Data) : (s.setNote c v).cfg = s.cfg := rfl
@[simp] theorem State.setNote_dec (c : Channel) (v : Data) : (s.setNote c v).dec = s.dec := rfl
@[simp] theorem State.setNote_en (c : Channel) (v : Data) : (s.setNote c v).en = s.en := rfl
@[simp] theorem State.setNote_ops (c : Channel) (v : Data) : (s.setNote c v).ops = s.ops := rfl
@[simp] theorem State.setNote_fault (c : Channel) (v : Data) : (s.setNote c v).fault = s.fault := rfl
@[simp] theorem State.setNote_sup (c : Channel) (v : Data) : (s.setNote c v).sup = s.sup := rfl
@[simp] theorem State.setNote_uart (c : Channel) (v : Data) : (s.setNote c v).uart = s.uart := rfl
@[simp] theorem State.setNote_initDone (c : Channel) (v : Data) : (s.setNote c v).initDone = s.initDone := rfl
@[simp] theorem State.setNote_offered (c : Channel) (v : Data) : (s.setNote c v).offered = s.offered := rfl
@[simp] theorem State.setNote_sense (c : Channel) (v : Data) : (s.setNote c v).sense = s.sense := rfl
@[simp] theorem State.setNote_queues (c : Channel) (v : Data) : (s.setNote c v).queues = s.queues := rfl
@[simp] theorem State.setNote_sched (c : Channel) (v : Data) : (s.setNote c v).sched = s.sched := rfl
@[simp] theorem State.setNote_trace (c : Channel) (v : Data) : (s.setNote c v).trace = s.trace := rfl

/-! ### setPw -/

@[simp] theorem State.setPw_cfg (c : Channel) (v : Wheel) : (s.setPw c v).cfg = s.cfg := rfl
@[simp] theorem State.setPw_dec (c : Channel) (v : Wheel) : (s.setPw c v).dec = s.dec := rfl
@[simp] theorem State.setPw_en (c : Channel) (v : Wheel) : (s.setPw c v).en = s.en := rfl
@[simp] theorem State.setPw_ops (c : Channel) (v : Wheel) : (s.setPw c v).ops = s.ops := rfl
@[simp] theorem State.setPw_fault (c : Channel) (v : Wheel) : (s.setPw c v).fault = s.fault := rfl
@[simp] theorem State.setPw_sup (c : Channel) (v : Wheel) : (s.setPw c v).sup = s.sup := rfl
@[simp] theorem State.setPw_uart (c : Channel) (v : Wheel) : (s.setPw c v).uart = s.uart := rfl
@[simp] theorem State.setPw_initDone (c : Channel) (v : Wheel) : (s.setPw c v).initDone = s.initDone := rfl
@[simp] theorem State.setPw_offered (c : Channel) (v : Wheel) : (s.setPw c v).offered = s.offered := rfl
@[simp] theorem State.setPw_sense (c : Channel) (v : Wheel) : (s.setPw c v).sense = s.sense := rfl
@[simp] theorem State.setPw_queues (c : Channel) (v : Wheel) : (s.setPw c v).queues = s.queues := rfl
@[simp] theorem State.setPw_sched (c : Channel) (v : Wheel) : (s.setPw c v).sched = s.sched := rfl
@[simp] theorem State.setPw_trace (c : Channel) (v : Wheel) : (s.setPw c v).trace = s.trace := rfl

/-! ### setVel -/

@[simp] theorem State.setVel_cfg (c : Channel) (v : BitVec 8) : (s.setVel c v).cfg = s.cfg := rfl
@[simp] theorem State.setVel_dec (c : Channel) (v : BitVec 8) : (s.setVel c v).dec = s.dec := rfl
@[simp] theorem State.setVel_en (c : Channel) (v : BitVec 8) : (s.setVel c v).en = s.en := rfl
@[simp] theorem State.setVel_ops (c : Channel) (v : BitVec 8) : (s.setVel c v).ops = s.ops := rfl
@[simp] theorem State.setVel_fault (c : Channel) (v : BitVec 8) : (s.setVel c v).fault = s.fault := rfl
@[simp] theorem State.setVel_sup (c : Channel) (v : BitVec 8) : (s.setVel c v).sup = s.sup := rfl
@[simp] theorem State.setVel_uart (c : Channel) (v : BitVec 8) : (s.setVel c v).uart = s.uart := rfl
@[simp] theorem State.setVel_initDone (c : Channel) (v : BitVec 8) : (s.setVel c v).initDone = s.initDone := rfl
@[simp] theorem State.setVel_offered (c : Channel) (v : BitVec 8) : (s.setVel c v).offered = s.offered := rfl
@[simp] theorem State.setVel_sense (c : Channel) (v : BitVec 8) : (s.setVel c v).sense = s.sense := rfl
@[simp] theorem State.setVel_queues (c : Channel) (v : BitVec 8) : (s.setVel c v).queues = s.queues := rfl
@[simp] theorem State.setVel_sched (c : Channel) (v : BitVec 8) : (s.setVel c v).sched = s.sched := rfl
@[simp] theorem State.setVel_trace (c : Channel) (v : BitVec 8) : (s.setVel c v).trace = s.trace := rfl

/-! ### issue -/

@[simp] theorem State.issue_cfg (op : Op) : (s.issue op).cfg = s.cfg := rfl
@[simp] theorem State.issue_dec (op : Op) : (s.issue op).dec = s.dec := rfl
@[simp] theorem State.issue_tbl (op : Op) : (s.issue op).tbl = s.tbl := rfl
@[simp] theorem State.issue_en (op : Op) : (s.issue op).en = s.en := rfl
@[simp] theorem State.issue_ops (op : Op) : (s.issue op).ops = s.ops ++ [op] := rfl
@[simp] theorem State.issue_fault (op : Op) : (s.issue op).fault = s.fault := rfl
@[simp] theorem State.issue_sup (op : Op) : (s.issue op).sup = s.sup := rfl
@[simp] theorem State.issue_uart (op : Op) : (s.issue op).uart = s.uart := rfl
@[simp] theorem State.issue_initDone (op : Op) : (s.issue op).initDone = s.initDone := rfl
@[simp] theorem State.issue_offered (op : Op) : (s.issue op).offered = s.offered := rfl
@[simp] theorem State.issue_sense (op : Op) : (s.issue op).sense = s.sense := rfl
@[simp] theorem State.issue_queues (op : Op) : (s.issue op).queues = s.queues := rfl
@[simp] theorem State.issue_sched (op : Op) : (s.issue op).sched = s.sched := rfl
@[simp] theorem State.issue_trace (op : Op) : (s.issue op).trace = s.trace := rfl

/-! ### setEnable -/

@[simp] theorem State.setEnable_cfg (u : Nat) (v : Bool) : (s.setEnable u v).cfg = s.cfg := rfl
@[simp] theorem State.setEnable_dec (u : Nat) (v : Bool) : (s.setEnable u v).dec = s.dec := rfl
@[simp] theorem State.setEnable_tbl (u : Nat) (v : Bool) : (s.setEnable u v).tbl = s.tbl := rfl
@[simp] theorem State.setEnable_en (u : Nat) (v : Bool) : (s.setEnable u v).en = s.en.set u v := rfl
@[simp] theorem State.setEnable_ops (u : Nat) (v : Bool) : (s.setEnable u v).ops = s.ops := rfl
@[simp] theorem State.setEnable_fault (u : Nat) (v : Bool) : (s.setEnable u v).fault = s.fault := rfl
@[simp] theorem State.setEnable_sup (u : Nat) (v : Bool) : (s.setEnable u v).sup = s.sup := rfl
@[simp] theorem State.setEnable_uart (u : Nat) (v : Bool) : (s.setEnable u v).uart = s.uart := rfl
@[simp] theorem State.setEnable_initDone (u : Nat) (v : Bool) : (s.setEnable u v).initDone = s.initDone := rfl
@[simp] theorem State.setEnable_offered (u : Nat) (v : Bool) : (s.setEnable u v).offered = s.offered := rfl
@[simp] theorem State.setEnable_sense (u : Nat) (v : Bool) : (s.setEnable u v).sense = s.sense := rfl
@[simp] theorem State.setEnable_queues (u : Nat) (v : Bool) : (s.setEnable u v).queues = s.queues := rfl
@[simp] theorem State.setEnable_sched (u : Nat) (v : Bool) : (s.setEnable u v).sched = s.sched := rfl
@[simp] theorem State.setEnable_trace (u : Nat) (v : Bool) : (s.setEnable u v).trace = s.trace := rfl

/-! ### enqueue -/

@[simp] theorem State.enqueue_cfg (u : Nat) (p : BitVec 32) : (s.enqueue u p).cfg = s.cfg := rfl
@[simp] theorem State.enqueue_dec (u : Nat) (p : BitVec 32) : (s.enqueue u p).dec = s.dec := rfl
@[simp] theorem State.enqueue_tbl (u : Nat) (p : BitVec 32) : (s.enqueue u p).tbl = s.tbl := rfl
@[simp] theorem State.enqueue_en (u : Nat) (p : BitVec 32) : (s.enqueue u p).en = s.en := rfl
@[simp] theorem State.enqueue_ops (u : Nat) (p : BitVec 32) : (s.enqueue u p).ops = s.ops := rfl
@[simp] theorem State.enqueue_fault (u : Nat) (p : BitVec 32) : (s.enqueue u p).fault = s.fault := rfl
@[simp] theorem State.enqueue_sup (u : Nat) (p : BitVec 32) : (s.enqueue u p).sup = s.sup := rfl
@[simp] theorem State.enqueue_uart (u : Nat) (p : BitVec 32) : (s.enqueue u p).uart = s.uart := rfl
@[simp] theorem State.enqueue_initDone (u : Nat) (p : BitVec 32) : (s.enqueue u p).initDone = s.initDone := rfl
@[simp] theorem State.enqueue_offered (u : Nat) (p : BitVec 32) : (s.enqueue u p).offered = s.offered := rfl
@[simp] theorem State.enqueue_sense (u : Nat) (p : BitVec 32) : (s.enqueue u p).sense = s.sense := rfl
@[simp] theorem State.enqueue_queues (u : Nat) (p : BitVec 32) : (s.enqueue u p).queues = s.queues.set u (s.queue u ++ [p]) := rfl
@[simp] theorem State.enqueue_sched (u : Nat) (p : BitVec 32) : (s.enqueue u p).sched = s.sched := rfl
@[simp] theorem State.enqueue_trace (u : Nat) (p : BitVec 32) : (s.enqueue u p).trace = s.trace := rfl

/-! ### dequeue -/

@[simp] theorem State.dequeue_cfg (u : Nat) : (s.dequeue u).cfg = s.cfg := rfl
@[simp] theorem State.dequeue_dec (u : Nat) : (s.dequeue u).dec = s.dec := rfl
@[simp] theorem State.dequeue_tbl (u : Nat) : (s.dequeue u).tbl = s.tbl := rfl
@[simp] theorem State.dequeue_en (u : Nat) : (s.dequeue u).en = s.en := rfl
@[simp] theorem State.dequeue_ops (u : Nat) : (s.dequeue u).ops = s.ops := rfl
@[simp] theorem State.dequeue_fault (u : Nat) : (s.dequeue u).fault = s.fault := rfl
@[simp] theorem State.dequeue_sup (u : Nat) : (s.dequeue u).sup = s.sup := rfl
@[simp] theorem State.dequeue_uart (u : Nat) : (s.dequeue u).uart = s.uart := rfl
@[simp] theorem State.dequeue_initDone (u : Nat) : (s.dequeue u).initDone = s.initDone := rfl
@[simp] theorem State.dequeue_offered (u : Nat) : (s.dequeue u).offered = s.offered := rfl
@[simp] theorem State.dequeue_sense (u : Nat) : (s.dequeue u).sense = s.sense := rfl
@[simp] theorem State.dequeue_queues (u : Nat) : (s.dequeue u).queues = s.queues.set u (s.queue u).tail := rfl
@[simp] theorem State.dequeue_sched (u : Nat) : (s.dequeue u).sched = s.sched := rfl
@[simp] theorem State.dequeue_trace (u : Nat) : (s.dequeue u).trace = s.trace := rfl

/-! ### record -/

@[simp] theorem State.record_cfg (o : Out) : (s.record o).cfg = s.cfg := rfl
@[simp] theorem State.record_dec (o : Out) : (s.record o).dec = s.dec := rfl
@[simp] theorem State.record_tbl (o : Out) : (s.record o).tbl = s.tbl := rfl
@[simp] theorem State.record_en (o : Out) : (s.record o).en = s.en := rfl
@[simp] theorem State.record_ops (o : Out) : (s.record o).ops = s.ops := rfl
@[simp] theorem State.record_fault (o : Out) : (s.record o).fault = s.fault := rfl
@[simp] theorem State.record_sup (o : Out) : (s.record o).sup = s.sup := rfl
@[simp] theorem State.record_uart (o : Out) : (s.record o).uart = s.uart := rfl
@[simp] theorem State.record_initDone (o : Out) : (s.record o).initDone = s.initDone := rfl
@[simp] theorem State.record_offered (o : Out) : (s.record o).offered = s.offered := rfl
@[simp] theorem State.record_sense (o : Out) : (s.record o).sense = s.sense := rfl
@[simp] theorem State.record_queues (o : Out) : (s.record o).queues = s.queues := rfl
@[simp] theorem State.record_sched (o : Out) : (s.record o).sched = s.sched := rfl
@[simp] theorem State.record_trace (o : Out) : (s.record o).trace = s.trace ++ [o] := rfl

/-! ### popTurn -/

@[simp] theorem State.popTurn_cfg : (s.popTurn).cfg = s.cfg := rfl
@[simp] theorem State.popTurn_dec : (s.popTurn).dec = s.dec := rfl
@[simp] theorem State.popTurn_tbl : (s.popTurn).tbl = s.tbl := rfl
@[simp] theorem State.popTurn_en : (s.popTurn).en = s.en := rfl
@[simp] theorem State.popTurn_ops : (s.popTurn).ops = s.ops := rfl
@[simp] theorem State.popTurn_fault : (s.popTurn).fault = s.fault := rfl
@[simp] theorem State.popTurn_sup : (s.popTurn).sup = s.sup := rfl
@[simp] theorem State.popTurn_uart : (s.popTurn).uart = s.uart := rfl
@[simp] theorem State.popTurn_initDone : (s.popTurn).initDone = s.initDone := rfl
@[simp] theorem State.popTurn_offered : (s.popTurn).offered = s.offered := rfl
@[simp] theorem State.popTurn_sense : (s.popTurn).sense = s.sense := rfl
@[simp] theorem State.popTurn_queues : (s.popTurn).queues = s.queues := rfl
@[simp] theorem State.popTurn_sched : (s.popTurn).sched = s.sched.tail := rfl
@[simp] theorem State.popTurn_trace : (s.popTurn).trace = s.trace := rfl

/-! ### setOps -/

@[simp] theorem State.setOps_cfg (ops : List Op) : (s.setOps ops).cfg = s.cfg := rfl
@[simp] theorem State.setOps_dec (ops : List Op) : (s.setOps ops).dec = s.dec := rfl
@[simp] theorem State.setOps_tbl (ops : List Op) : (s.setOps ops).tbl = s.tbl := rfl
@[simp] theorem State.setOps_en (ops : List Op) : (s.setOps ops).en = s.en := rfl
@[simp] theorem State.setOps_ops (ops : List Op) : (s.setOps ops).ops = ops := rfl
@[simp] theorem State.setOps_fault (ops : List Op) : (s.setOps ops).fault = s.fault := rfl
@[simp] theorem State.setOps_sup (ops : List Op) : (s.setOps ops).sup = s.sup := rfl
@[simp] theorem State.setOps_uart (ops : List Op) : (s.setOps ops).uart = s.uart := rfl
@[simp] theorem State.setOps_initDone (ops : List Op) : (s.setOps ops).initDone = s.initDone := rfl
@[simp] theorem State.setOps_offered (ops : List Op) : (s.setOps ops).offered = s.offered := rfl
@[simp] theorem State.setOps_sense (ops : List Op) : (s.setOps ops).sense = s.sense := rfl
@[simp] theorem State.setOps_queues (ops : List Op) : (s.setOps ops).queues = s.queues := rfl
@[simp] theorem State.setOps_sched (ops : List Op) : (s.setOps ops).sched = s.sched := rfl
@[simp] theorem State.setOps_trace (ops : List Op) : (s.setOps ops).trace = s.trace := rfl
@[simp] theorem State.setOps_entry (ops : List Op) (c : Channel) : (s.setOps ops).entry c = s.entry c := rfl
@[simp] theorem State.setOps_enabled (ops : List Op) (u : Nat) : (s.setOps ops).enabled u = s.enabled u := rfl
@[simp] theorem State.setOps_queue (ops : List Op) (u : Nat) : (s.setOps ops).queue u = s.queue u := rfl

/-! ### setDec -/

@[simp] theorem State.setDec_cfg (d : Decoder) : (s.setDec d).cfg = s.cfg := rfl
@[simp] theorem State.setDec_dec (d : Decoder) : (s.setDec d).dec = d := rfl
@[simp] theorem State.setDec_tbl (d : Decoder) : (s.setDec d).tbl = s.tbl := rfl
@[simp] theorem State.setDec_en (d : Decoder) : (s.setDec d).en = s.en := rfl
@[simp] theorem State.setDec_ops (d : Decoder) : (s.setDec d).ops = s.ops := rfl
@[simp] theorem State.setDec_fault (d : Decoder) : (s.setDec d).fault = s.fault := rfl
@[simp] theorem State.setDec_sup (d : Decoder) : (s.setDec d).sup = s.sup := rfl
@[simp] theorem State.setDec_uart (d : Decoder) : (s.setDec d).uart = s.uart := rfl
@[simp] theorem State.setDec_initDone (d : Decoder) : (s.setDec d).initDone = s.initDone := rfl
@[simp] theorem State.setDec_offered (d : Decoder) : (s.setDec d).offered = s.offered := rfl
@[simp] theorem State.setDec_sense (d : Decoder) : (s.setDec d).sense = s.sense := rfl
@[simp] theorem State.setDec_queues (d : Decoder) : (s.setDec d).queues = s.queues := rfl
@[simp] theorem State.setDec_sched (d : Decoder) : (s.setDec d).sched = s.sched := rfl
@[simp] theorem State.setDec_trace (d : Decoder) : (s.setDec d).trace = s.trace := rfl
@[simp] theorem State.setDec_entry (d : Decoder) (c : Channel) : (s.setDec d).entry c = s.entry c := rfl
@[simp] theorem State.setDec_enabled (d : Decoder) (u : Nat) : (s.setDec d).enabled u = s.enabled u := rfl
@[simp] theorem State.setDec_queue (d : Decoder) (u : Nat) : (s.setDec d).queue u = s.queue u := rfl

/-! ### setFault -/

@[simp] theorem State.setFault_cfg : (s.setFault).cfg = s.cfg := rfl
@[simp] theorem State.setFault_dec : (s.setFault).dec = s.dec := rfl
@[simp] theorem State.setFault_tbl : (s.setFault).tbl = s.tbl := rfl
@[simp] theorem State.setFault_en : (s.setFault).en = s.en := rfl
@[simp] theorem State.setFault_ops : (s.setFault).ops = s.ops := rfl
@[simp] theorem State.setFault_fault : (s.setFault).fault = true := rfl
@[simp] theorem State.setFault_sup : (s.setFault).sup = s.sup := rfl
@[simp] theorem State.setFault_uart : (s.setFault).uart = s.uart := rfl
@[simp] theorem State.setFault_initDone : (s.setFault).initDone = s.initDone := rfl
@[simp] theorem State.setFault_offered : (s.setFault).offered = s.offered := rfl
@[simp] theorem State.setFault_sense : (s.setFault).sense = s.sense := rfl
@[simp] theorem State.setFault_queues : (s.setFault).queues = s.queues := rfl
@[simp] theorem State.setFault_sched : (s.setFault).sched = s.sched := rfl
@[simp] theorem State.setFault_trace : (s.setFault).trace = s.trace := rfl
@[simp] theorem State.setFault_entry (c : Channel) : (s.setFault).entry c = s.entry c := rfl
@[simp] theorem State.setFault_enabled (u : Nat) : (s.setFault).enabled u = s.enabled u := rfl
@[simp] theorem State.setFault_queue (u : Nat) : (s.setFault).queue u = s.queue u := rfl

/-! ### setPairs -/

@[simp] theorem State.setPairs_cfg (ps : Vector Pair 4) : (s.setPairs ps).cfg = s.cfg := rfl
@[simp] theorem State.setPairs_dec (ps : Vector Pair 4) : (s.setPairs ps).dec = s.dec := rfl
@[simp] theorem State.setPairs_tbl (ps : Vector Pair 4) : (s.setPairs ps).tbl = s.tbl := rfl
@[simp] theorem State.setPairs_en (ps : Vector Pair 4) : (s.setPairs ps).en = s.en := rfl
@[simp] theorem State.setPairs_ops (ps : Vector Pair 4) : (s.setPairs ps).ops = s.ops := rfl
@[simp] theorem State.setPairs_fault (ps : Vector Pair 4) : (s.setPairs ps).fault = s.fault := rfl
@[simp] theorem State.setPairs_sup (ps : Vector Pair 4) : (s.setPairs ps).sup = some ps := rfl
@[simp] theorem State.setPairs_uart (ps : Vector Pair 4) : (s.setPairs ps).uart = s.uart := rfl
@[simp] theorem State.setPairs_initDone (ps : Vector Pair 4) : (s.setPairs ps).initDone = s.initDone := rfl
@[simp] theorem State.setPairs_offered (ps : Vector Pair 4) : (s.setPairs ps).offered = s.offered := rfl
@[simp] theorem State.setPairs_sense (ps : Vector Pair 4) : (s.setPairs ps).sense = s.sense := rfl
@[simp] theorem State.setPairs_queues (ps : Vector Pair 4) : (s.setPairs ps).queues = s.queues := rfl
@[simp] theorem State.setPairs_sched (ps : Vector Pair 4) : (s.setPairs ps).sched = s.sched := rfl
@[simp] theorem State.setPairs_trace (ps : Vector Pair 4) : (s.setPairs ps).trace = s.trace := rfl
@[simp] theorem State.setPairs_entry (ps : Vector Pair 4) (c : Channel) : (s.setPairs ps).entry c = s.entry c := rfl
@[simp] theorem State.setPairs_enabled (ps : Vector Pair 4) (u : Nat) : (s.setPairs ps).enabled u = s.enabled u := rfl
@[simp] theorem State.setPairs_queue (ps : Vector Pair 4) (u : Nat) : (s.setPairs ps).queue u = s.queue u := rfl

/-! ### acceptByte: the byte interface alone -/

@[simp] theorem State.acceptByte_cfg : s.acceptByte.cfg = s.cfg := by
  unfold State.acceptByte; split <;> rfl
@[simp] theorem State.acceptByte_dec : s.acceptByte.dec = s.dec := by
  unfold State.acceptByte; split <;> rfl
@[simp] theorem State.acceptByte_tbl : s.acceptByte.tbl = s.tbl := by
  unfold State.acceptByte; split <;> rfl
@[simp] theorem State.acceptByte_en : s.acceptByte.en = s.en := by
  unfold State.acceptByte; split <;> rfl
@[simp] theorem State.acceptByte_ops : s.acceptByte.ops = s.ops := by
  unfold State.acceptByte; split <;> rfl
@[simp] theorem State.acceptByte_fault : s.acceptByte.fault = s.fault := by
  unfold State.acceptByte; split <;> rfl
@[simp] theorem State.acceptByte_sup : s.acceptByte.sup = s.sup := by
  unfold State.acceptByte; split <;> rfl
@[simp] theorem State.acceptByte_initDone : s.acceptByte.initDone = s.initDone := by
  unfold State.acceptByte; split <;> rfl
@[simp] theorem State.acceptByte_sense : s.acceptByte.sense = s.sense := by
  unfold State.acceptByte; split <;> rfl
@[simp] theorem State.acceptByte_queues : s.acceptByte.queues = s.queues := by
  unfold State.acceptByte; split <;> rfl
@[simp] theorem State.acceptByte_sched : s.acceptByte.sched = s.sched := by
  unfold State.acceptByte; split <;> rfl
@[simp] theorem State.acceptByte_trace : s.acceptByte.trace = s.trace := by
  unfold State.acceptByte; split <;> rfl

/-! ### The channel table -/

/-- Reading the entry just written. -/
@[simp] theorem State.entry_setEntry_self (c : Channel) (e : Entry) : (s.setEntry c e).entry c = e := by
  simp [State.entry]

/-- Writing one entry leaves every other one (R68). -/
theorem State.entry_setEntry_ne {c c' : Channel} (h : c' ≠ c) (e : Entry) : (s.setEntry c e).entry c' = s.entry c' := by
  have : c.toNat ≠ c'.toNat := fun h' => h (BitVec.eq_of_toNat_eq h'.symm)
  simp [State.entry, Vector.getElem_set_ne _ _ this]

theorem State.entry_setEntry (c c' : Channel) (e : Entry) :
    (s.setEntry c e).entry c' = if c' = c then e else s.entry c' := by
  split
  · next h => subst h; simp
  · next h => exact s.entry_setEntry_ne h e

@[simp] theorem State.entry_setNote_self (c : Channel) (v : Data) :
    (s.setNote c v).entry c = { s.entry c with note := v } := by simp [State.setNote]

@[simp] theorem State.entry_setPw_self (c : Channel) (v : Wheel) :
    (s.setPw c v).entry c = { s.entry c with pw := v } := by simp [State.setPw]

@[simp] theorem State.entry_setVel_self (c : Channel) (v : BitVec 8) :
    (s.setVel c v).entry c = { s.entry c with vel := v } := by simp [State.setVel]

theorem State.entry_setNote_ne {c c' : Channel} (h : c' ≠ c) (v : Data) : (s.setNote c v).entry c' = s.entry c' :=
  s.entry_setEntry_ne h _

theorem State.entry_setPw_ne {c c' : Channel} (h : c' ≠ c) (v : Wheel) : (s.setPw c v).entry c' = s.entry c' :=
  s.entry_setEntry_ne h _

theorem State.entry_setVel_ne {c c' : Channel} (h : c' ≠ c) (v : BitVec 8) : (s.setVel c v).entry c' = s.entry c' :=
  s.entry_setEntry_ne h _

@[simp] theorem State.entry_issue (op : Op) (c : Channel) : (s.issue op).entry c = s.entry c := rfl

@[simp] theorem State.entry_popTurn (c : Channel) : s.popTurn.entry c = s.entry c := rfl

@[simp] theorem State.entry_record (o : Out) (c : Channel) : (s.record o).entry c = s.entry c := rfl

@[simp] theorem State.entry_setEnable (u : Nat) (v : Bool) (c : Channel) : (s.setEnable u v).entry c = s.entry c := rfl

@[simp] theorem State.entry_enqueue (u : Nat) (p : BitVec 32) (c : Channel) : (s.enqueue u p).entry c = s.entry c := rfl

@[simp] theorem State.entry_dequeue (u : Nat) (c : Channel) : (s.dequeue u).entry c = s.entry c := rfl

@[simp] theorem State.entry_acceptByte (c : Channel) : s.acceptByte.entry c = s.entry c := by
  simp [State.entry]

/-! ### The enables and the queues -/

@[simp] theorem State.enabled_setEntry (c : Channel) (e : Entry) (u : Nat) : (s.setEntry c e).enabled u = s.enabled u := rfl

@[simp] theorem State.enabled_setNote (c : Channel) (v : Data) (u : Nat) : (s.setNote c v).enabled u = s.enabled u := rfl

@[simp] theorem State.enabled_setPw (c : Channel) (v : Wheel) (u : Nat) : (s.setPw c v).enabled u = s.enabled u := rfl

@[simp] theorem State.enabled_setVel (c : Channel) (v : BitVec 8) (u : Nat) : (s.setVel c v).enabled u = s.enabled u := rfl

@[simp] theorem State.enabled_issue (op : Op) (u : Nat) : (s.issue op).enabled u = s.enabled u := rfl

@[simp] theorem State.enabled_record (o : Out) (u : Nat) : (s.record o).enabled u = s.enabled u := rfl

@[simp] theorem State.enabled_popTurn (u : Nat) : (s.popTurn).enabled u = s.enabled u := rfl

@[simp] theorem State.enabled_enqueue (u' : Nat) (p : BitVec 32) (u : Nat) : (s.enqueue u' p).enabled u = s.enabled u := rfl

@[simp] theorem State.enabled_dequeue (u' : Nat) (u : Nat) : (s.dequeue u').enabled u = s.enabled u := rfl

@[simp] theorem State.queue_setEntry (c : Channel) (e : Entry) (u : Nat) : (s.setEntry c e).queue u = s.queue u := rfl

@[simp] theorem State.queue_setNote (c : Channel) (v : Data) (u : Nat) : (s.setNote c v).queue u = s.queue u := rfl

@[simp] theorem State.queue_setPw (c : Channel) (v : Wheel) (u : Nat) : (s.setPw c v).queue u = s.queue u := rfl

@[simp] theorem State.queue_setVel (c : Channel) (v : BitVec 8) (u : Nat) : (s.setVel c v).queue u = s.queue u := rfl

@[simp] theorem State.queue_issue (op : Op) (u : Nat) : (s.issue op).queue u = s.queue u := rfl

@[simp] theorem State.queue_record (o : Out) (u : Nat) : (s.record o).queue u = s.queue u := rfl

@[simp] theorem State.queue_popTurn (u : Nat) : (s.popTurn).queue u = s.queue u := rfl

@[simp] theorem State.queue_setEnable (u' : Nat) (v : Bool) (u : Nat) : (s.setEnable u' v).queue u = s.queue u := rfl

@[simp] theorem State.enabled_acceptByte (u : Nat) : s.acceptByte.enabled u = s.enabled u := by simp [State.enabled]

@[simp] theorem State.queue_acceptByte (u : Nat) : s.acceptByte.queue u = s.queue u := by simp [State.queue]

/-- Reading the enable just written, of a unit that exists. -/
theorem State.enabled_setEnable_self {u : Nat} (h : u < s.en.length) (v : Bool) : (s.setEnable u v).enabled u = v := by
  simp [State.enabled, h]

/-- Writing one enable leaves every other one. -/
theorem State.enabled_setEnable_ne {u u' : Nat} (h : u' ≠ u) (v : Bool) : (s.setEnable u v).enabled u' = s.enabled u' := by
  simp [State.enabled, List.getD_eq_getElem?_getD, List.getElem?_set_ne (Ne.symm h)]

/-- Reading the queue just appended to, of a unit that exists. -/
theorem State.queue_enqueue_self {u : Nat} (h : u < s.queues.length) (p : BitVec 32) :
    (s.enqueue u p).queue u = s.queue u ++ [p] := by
  simp [State.queue, h]

/-- Appending to one queue leaves every other one. -/
theorem State.queue_enqueue_ne {u u' : Nat} (h : u' ≠ u) (p : BitVec 32) : (s.enqueue u p).queue u' = s.queue u' := by
  simp [State.queue, List.getD_eq_getElem?_getD, List.getElem?_set_ne (Ne.symm h)]

/-- Driving an enable low leaves it low, whether the unit exists or not. -/
theorem State.enabled_setEnable_false (u : Nat) : (s.setEnable u false).enabled u = false := by
  by_cases h : u < s.en.length
  · exact s.enabled_setEnable_self h false
  · simp [State.enabled, h]

/-- Every queue keeps within the depth a queue update keeps it in. -/
theorem queues_set_bound {qs : List (List (BitVec 32))} {n u : Nat} {q : List (BitVec 32)}
    (h : ∀ x ∈ qs, x.length ≤ n) (hq : q.length ≤ n) : ∀ x ∈ qs.set u q, x.length ≤ n := by
  intro x hx
  rcases List.mem_or_eq_of_mem_set hx with hx | rfl
  · exact h x hx
  · exact hq

end Sys2Proof.Machine
end

