-- ==== Sys2Proof/Laws/Ops.lean ====
section
/-! SUPPORT. What the shared operations can do, said once each. -/

namespace Sys2Proof.Machine

/-- `releaseNote` either clears the velocity and issues one `Stop`, or changes nothing (R141). -/
theorem releaseNote_cases (c : Channel) (note : Data) (s : State) :
    (note = (s.entry c).note ∧ releaseNote c note s = (s.setVel c 0#8).issue (.stop { c := c, n := note })) ∨
    (note ≠ (s.entry c).note ∧ releaseNote c note s = s) := by
  by_cases h : note = (s.entry c).note
  · exact .inl ⟨h, by simp [releaseNote, noteMatches, h]⟩
  · exact .inr ⟨h, by simp [releaseNote, noteMatches, h]⟩

/-- `check_freq` fails exactly when the key has a unit and the frequency is zero (R198). -/
theorem freqInvalid_iff (cfg : Config) (k : Key) (hz : BitVec 16) :
    freqInvalid cfg k hz = true ↔ hz = 0#16 ∧ (unitOf cfg k).isSome = true := by
  simp [freqInvalid]

/-- NOTEON either enters the fault state or stores its operands and issues two operations (R143). -/
theorem execNoteOn_cases (c : Channel) (note vel : Data) (s : State) :
    (freqInvalid s.cfg { c := c, n := note } (resolve s.cfg.constants note (s.entry c).pw) = true ∧
      execNoteOn c note vel s = .next s.setFault) ∨
    (freqInvalid s.cfg { c := c, n := note } (resolve s.cfg.constants note (s.entry c).pw) = false ∧
      execNoteOn c note vel s = .next
        ((((s.setNote c note).issue
            (.setFrequency { c := c, n := note } (resolve s.cfg.constants note (s.entry c).pw))).issue
            (.start { c := c, n := note })).setVel c (velocityOf vel))) := by
  unfold execNoteOn raiseInvalidFrequency
  cases h : freqInvalid s.cfg { c := c, n := note } (resolve s.cfg.constants note (s.entry c).pw) <;> simp [h]

/-- PITCHBEND either enters the fault state or stores the bend and issues one operation (R150). -/
theorem execPitchBend_cases (c : Channel) (lo hi : Data) (s : State) :
    (freqInvalid s.cfg { c := c, n := (s.entry c).note }
        (resolve s.cfg.constants (s.entry c).note (wheelOf lo hi)) = true ∧
      execPitchBend c lo hi s = .next s.setFault) ∨
    (freqInvalid s.cfg { c := c, n := (s.entry c).note }
        (resolve s.cfg.constants (s.entry c).note (wheelOf lo hi)) = false ∧
      execPitchBend c lo hi s = .next
        ((s.setPw c (wheelOf lo hi)).issue
          (.setFrequency { c := c, n := (s.entry c).note }
            (resolve s.cfg.constants (s.entry c).note (wheelOf lo hi))))) := by
  unfold execPitchBend raiseInvalidFrequency
  cases h : freqInvalid s.cfg { c := c, n := (s.entry c).note }
    (resolve s.cfg.constants (s.entry c).note (wheelOf lo hi)) <;> simp [h]

/-- Everything one message can do: nothing, enter the fault state, or one of the four effects (R141 to R151). -/
theorem exec_cases (i : Instr) (s : State) :
    exec i s = .next s ∨
    exec i s = .next s.setFault ∨
    (∃ c note, note = (s.entry c).note ∧ channelField i = c ∧
      exec i s = .next ((s.setVel c 0#8).issue (.stop { c := c, n := note }))) ∨
    (∃ c, channelField i = c ∧ exec i s = .next (s.issue (.stop { c := c, n := (s.entry c).note }))) ∨
    (∃ c note vel hz, i = .noteOn c note vel ∧ freqInvalid s.cfg { c := c, n := note } hz = false ∧
      exec i s = .next
        ((((s.setNote c note).issue (.setFrequency { c := c, n := note } hz)).issue
          (.start { c := c, n := note })).setVel c (velocityOf vel))) ∨
    (∃ c lo hi hz, i = .pitchBend c lo hi ∧ freqInvalid s.cfg { c := c, n := (s.entry c).note } hz = false ∧
      exec i s = .next
        ((s.setPw c (wheelOf lo hi)).issue (.setFrequency { c := c, n := (s.entry c).note } hz))) := by
  have hrel : ∀ c note, releaseNote c note s = s ∨
      (note = (s.entry c).note ∧ releaseNote c note s = (s.setVel c 0#8).issue (.stop { c := c, n := note })) :=
    fun c note => (releaseNote_cases c note s).elim .inr fun h => .inl h.2
  cases i with
  | noteOff c note vel =>
    rcases hrel c note with h | ⟨h, h'⟩
    · exact .inl (by simp [exec, execNoteOff, h])
    · exact .inr (.inr (.inl ⟨c, note, h, rfl, by simp [exec, execNoteOff, h']⟩))
  | noteOnV0 c note =>
    rcases hrel c note with h | ⟨h, h'⟩
    · exact .inl (by simp [exec, execNoteOnV0, h])
    · exact .inr (.inr (.inl ⟨c, note, h, rfl, by simp [exec, execNoteOnV0, h']⟩))
  | noteOn c note vel =>
    rcases execNoteOn_cases c note vel s with ⟨_, h⟩ | ⟨hf, h⟩
    · exact .inr (.inl h)
    · exact .inr (.inr (.inr (.inr (.inl ⟨c, note, vel, _, rfl, hf, h⟩))))
  | pitchBend c lo hi =>
    rcases execPitchBend_cases c lo hi s with ⟨_, h⟩ | ⟨hf, h⟩
    · exact .inr (.inl h)
    · exact .inr (.inr (.inr (.inr (.inr ⟨c, lo, hi, _, rfl, hf, h⟩))))
  | ccAllSoundOff c val => exact .inr (.inr (.inr (.inl ⟨c, rfl, rfl⟩)))
  | ccAllNotesOff c val => exact .inr (.inr (.inr (.inl ⟨c, rfl, rfl⟩)))
  | cc => exact .inl rfl
  | polyPress => exact .inl rfl
  | progChg => exact .inl rfl
  | chanPress => exact .inl rfl
  | reserved => exact .inl rfl

/-- A message step always answers a next state. -/
theorem exec_next (i : Instr) (s : State) : ∃ t, exec i s = .next t := by
  rcases exec_cases i s with h | h | ⟨_, _, _, _, h⟩ | ⟨_, _, h⟩ | ⟨_, _, _, _, _, _, h⟩ | ⟨_, _, _, _, _, _, h⟩ <;>
    exact ⟨_, h⟩

/-- Performing START or STOP: the unit's enable is driven, or the key has no unit (R194 to R196). -/
theorem performEnable_cases (op : Op) (k : Key) (v : Bool) (rest : List Op) (s : State) :
    (unitOf s.cfg k = none ∧ performEnable op k v rest s = (s.setOps rest).record (.unmapped op)) ∨
    (∃ u, unitOf s.cfg k = some u ∧
      performEnable op k v rest s = ((s.setOps rest).setEnable u v).record (.enable u v)) := by
  unfold performEnable performUnmapped
  split
  · next h => exact .inl ⟨h, rfl⟩
  · next u h => exact .inr ⟨u, h, rfl⟩

/-- Performing SETFREQUENCY: the key has no unit, or it waits for room, or it hands over the period; only a zero frequency of a
mapped key is a fault (R192, R194, R197). -/
theorem performSetFrequency_cases (k : Key) (hz : BitVec 16) (rest : List Op) (s : State) :
    (unitOf s.cfg k = none ∧
      performSetFrequency k hz rest s = .next ((s.setOps rest).record (.unmapped (.setFrequency k hz)))) ∨
    (∃ u, unitOf s.cfg k = some u ∧ hz = 0#16 ∧ performSetFrequency k hz rest s = .fault (.divisionByZero k)) ∨
    (∃ u, unitOf s.cfg k = some u ∧ hz ≠ 0#16 ∧ s.lpReady u = false ∧ performSetFrequency k hz rest s = .next s) ∨
    (∃ u, unitOf s.cfg k = some u ∧ hz ≠ 0#16 ∧ s.lpReady u = true ∧
      performSetFrequency k hz rest s = .next
        (((s.setOps rest).enqueue u (periodOf s.cfg.constants hz)).record
          (.loadPeriod u (periodOf s.cfg.constants hz)))) := by
  unfold performSetFrequency performUnmapped
  split
  · next h => exact .inl ⟨h, rfl⟩
  · next u h =>
    by_cases hz0 : hz = 0#16
    · exact .inr (.inl ⟨u, h, hz0, by simp [hz0]⟩)
    · cases hr : s.lpReady u
      · exact .inr (.inr (.inl ⟨u, h, hz0, hr, by simp [hz0]⟩))
      · exact .inr (.inr (.inr ⟨u, h, hz0, hr, by simp [hz0]⟩))

/-- Everything performing an operation can do: wait for room, remove an operation without a unit, load a period, drive an enable, or, for
a zero frequency of a mapped key alone, fault (R192, R194 to R197). -/
theorem performOp_cases (op : Op) (rest : List Op) (s : State) :
    (performOp op rest s = .next s ∧ ∃ k hz, op = .setFrequency k hz) ∨
    (unitOf s.cfg op.key = none ∧ performOp op rest s = .next ((s.setOps rest).record (.unmapped op))) ∨
    (∃ k hz u, op = .setFrequency k hz ∧ unitOf s.cfg k = some u ∧ hz ≠ 0#16 ∧ s.lpReady u = true ∧
      performOp op rest s = .next
        (((s.setOps rest).enqueue u (periodOf s.cfg.constants hz)).record
          (.loadPeriod u (periodOf s.cfg.constants hz)))) ∨
    (∃ k v u, ((op = .start k ∧ v = true) ∨ (op = .stop k ∧ v = false)) ∧ unitOf s.cfg k = some u ∧
      performOp op rest s = .next (((s.setOps rest).setEnable u v).record (.enable u v))) ∨
    (∃ k hz u, op = .setFrequency k hz ∧ unitOf s.cfg k = some u ∧ hz = 0#16 ∧
      performOp op rest s = .fault (.divisionByZero k)) := by
  cases op with
  | setFrequency k hz =>
    rcases performSetFrequency_cases k hz rest s with ⟨h, h'⟩ | ⟨u', h, h1, h'⟩ | ⟨u', h, h1, h2, h'⟩ | ⟨u', h, h1, h2, h'⟩
    · exact .inr (.inl ⟨h, h'⟩)
    · exact .inr (.inr (.inr (.inr ⟨k, hz, u', rfl, h, h1, h'⟩)))
    · exact .inl ⟨h', k, hz, rfl⟩
    · exact .inr (.inr (.inl ⟨k, hz, u', rfl, h, h1, h2, h'⟩))
  | start k =>
    rcases performEnable_cases (.start k) k true rest s with ⟨h, h'⟩ | ⟨u', h, h'⟩
    · exact .inr (.inl ⟨h, by simp [performOp, h']⟩)
    · exact .inr (.inr (.inr (.inl ⟨k, true, u', by simp, h, by simp [performOp, h']⟩)))
  | stop k =>
    rcases performEnable_cases (.stop k) k false rest s with ⟨h, h'⟩ | ⟨u', h, h'⟩
    · exact .inr (.inl ⟨h, by simp [performOp, h']⟩)
    · exact .inr (.inr (.inr (.inl ⟨k, false, u', by simp, h, by simp [performOp, h']⟩)))

/-- In the tone and scanner families the note plays no part in the unit of a key (R193). -/
theorem unitOf_note_irrelevant {cfg : Config} (h : cfg.family ≠ .click) (c : Channel) (n n' : Data) :
    unitOf cfg { c := c, n := n } = unitOf cfg { c := c, n := n' } := by
  unfold unitOf
  cases hf : cfg.family <;> simp_all

/-- A map that names no unit twice is injective. -/
theorem mappedUnits_injective {n : Nat} {α : Type} {m : Vector (Option α) n} (h : (mappedUnits m).Nodup) {i j : Nat}
    (hi : i < n) (hj : j < n) {u : α} (h1 : m[i] = some u) (h2 : m[j] = some u) : i = j := by
  unfold mappedUnits at h
  have aux : ∀ l : List (Option α), (l.filterMap id).Nodup → ∀ (i j : Nat), l[i]? = some (some u) → l[j]? = some (some u) →
      i = j := by
    intro l
    induction l with
    | nil => intro _ i j h1; simp at h1
    | cons x xs ih =>
      intro hnd i j h1 h2
      have hmem : ∀ k : Nat, xs[k]? = some (some u) → u ∈ xs.filterMap id := fun k hk =>
        List.mem_filterMap.mpr ⟨some u, List.mem_of_getElem? hk, rfl⟩
      cases x with
      | none =>
        rw [List.filterMap_cons_none (by rfl)] at hnd
        cases i <;> cases j <;> simp_all
        exact ih _ _ h1 h2
      | some v =>
        rw [List.filterMap_cons_some (by rfl), List.nodup_cons] at hnd
        cases i with
        | zero =>
          cases j with
          | zero => rfl
          | succ j =>
            simp only [List.getElem?_cons_zero, List.getElem?_cons_succ, Option.some.injEq] at h1 h2
            exact absurd (h1 ▸ hmem j h2) hnd.1
        | succ i =>
          cases j with
          | zero =>
            simp only [List.getElem?_cons_zero, List.getElem?_cons_succ, Option.some.injEq] at h1 h2
            exact absurd (h2 ▸ hmem i h1) hnd.1
          | succ j =>
            simp only [List.getElem?_cons_succ] at h1 h2
            rw [ih hnd.2 i j h1 h2]
  refine aux m.toList h i j ?_ ?_
  · rw [List.getElem?_eq_getElem (by simpa using hi)]; simpa using h1
  · rw [List.getElem?_eq_getElem (by simpa using hj)]; simpa using h2

end Sys2Proof.Machine
end

