-- ==== Sys2Proof/Laws/PerInstr.lean ====
section
/-! SUPPORT. A property of every message kind: the shape of its encoding (rules R80, R81, R84, R86). -/

namespace Sys2Proof.Laws.EncodingShape

/-- The encoding is a status byte and then data bytes only, as many bytes in all as the status byte's command takes. -/
def Statement (i : Instr) : Prop :=
  ∃ b bs, encode i = b :: bs ∧ isStatus b = true ∧ (∀ x ∈ bs, isStatus x = false) ∧
    (encode i).length = messageLength b

theorem noteOff (c : Channel) (note vel : Data) : Statement (.noteOff c note vel) :=
  ⟨_, _, rfl, by simp, by simp, by simp [encode, messageLength, takesOneDataByte]⟩

theorem noteOnV0 (c : Channel) (note : Data) : Statement (.noteOnV0 c note) :=
  ⟨_, _, rfl, by simp, by simp, by simp [encode, messageLength, takesOneDataByte]⟩

theorem noteOn (c : Channel) (note vel : Data) : Statement (.noteOn c note vel) :=
  ⟨_, _, rfl, by simp, by simp, by simp [encode, messageLength, takesOneDataByte]⟩

theorem polyPress (c : Channel) (note pressure : Data) : Statement (.polyPress c note pressure) :=
  ⟨_, _, rfl, by simp, by simp, by simp [encode, messageLength, takesOneDataByte]⟩

theorem ccAllSoundOff (c : Channel) (val : Data) : Statement (.ccAllSoundOff c val) :=
  ⟨_, _, rfl, by simp, by simp, by simp [encode, messageLength, takesOneDataByte]⟩

theorem ccAllNotesOff (c : Channel) (val : Data) : Statement (.ccAllNotesOff c val) :=
  ⟨_, _, rfl, by simp, by simp, by simp [encode, messageLength, takesOneDataByte]⟩

theorem cc (c : Channel) (ctl val : Data) : Statement (.cc c ctl val) :=
  ⟨_, _, rfl, by simp, by simp, by simp [encode, messageLength, takesOneDataByte]⟩

theorem progChg (c : Channel) (prog : Data) : Statement (.progChg c prog) :=
  ⟨_, _, rfl, by simp, by simp, by simp [encode, messageLength, takesOneDataByte]⟩

theorem chanPress (c : Channel) (pressure : Data) : Statement (.chanPress c pressure) :=
  ⟨_, _, rfl, by simp, by simp, by simp [encode, messageLength, takesOneDataByte]⟩

theorem pitchBend (c : Channel) (lo hi : Data) : Statement (.pitchBend c lo hi) :=
  ⟨_, _, rfl, by simp, by simp, by simp [encode, messageLength, takesOneDataByte]⟩

theorem reserved (s : Channel) (a b : Data) : Statement (.reserved s a b) :=
  ⟨_, _, rfl, by simp, by simp, by simp [encode, messageLength, takesOneDataByte]⟩

end Sys2Proof.Laws.EncodingShape
end

