-- ==== Sys2Proof/Laws/Resolver.lean ====
section
/-! SUPPORT. What the resolver's shared operations compute: the power, the comparison of rule R173, and the bit-by-bit
search. -/

namespace Sys2Proof.Machine

theorem powBySquares_eq (fuel x e : Nat) (h : e < 2 ^ fuel) : powBySquares fuel x e = x ^ e := by
  induction fuel generalizing x e with
  | zero => simp_all [powBySquares]
  | succ fuel ih =>
    have hhalf : e / 2 < 2 ^ fuel := by rw [pow_succ] at h; omega
    have hsq : (x * x) ^ (e / 2) = x ^ (2 * (e / 2)) := by rw [← pow_two, ← pow_mul]
    unfold powBySquares
    split
    · next h0 => simp [h0]
    · split
      · rw [ih _ _ hhalf, hsq, ← pow_succ']
        congr 1; omega
      · rw [ih _ _ hhalf, hsq]
        congr 1; omega

/-- `power` is the power. -/
@[simp] theorem power_eq (x e : Nat) : power x e = x ^ e :=
  powBySquares_eq _ _ _ (Nat.lt_log2_self)

/-- The comparison of R173 where `a ≥ 0`. -/
theorem notAbove_iff_of_nonneg {k : Constants} {a : Int} (h : 0 ≤ a) (m : Nat) :
    notAbove k a m = true ↔ m ^ stepsPerOctave k ≤ k.refHz ^ stepsPerOctave k * 2 ^ a.toNat := by
  simp [notAbove, h]

/-- The comparison of R173 where `a < 0`. -/
theorem notAbove_iff_of_neg {k : Constants} {a : Int} (h : a < 0) (m : Nat) :
    notAbove k a m = true ↔ m ^ stepsPerOctave k * 2 ^ (-a).toNat ≤ k.refHz ^ stepsPerOctave k := by
  simp [notAbove, not_le.mpr h]

/-- A frequency below one that is not above the exact frequency is not above it either. -/
theorem notAbove_of_le {k : Constants} {a : Int} {m m' : Nat} (hm : m' ≤ m) (h : notAbove k a m = true) :
    notAbove k a m' = true := by
  rcases le_or_gt 0 a with ha | ha
  · rw [notAbove_iff_of_nonneg ha] at h ⊢
    exact (Nat.pow_le_pow_left hm _).trans h
  · rw [notAbove_iff_of_neg ha] at h ⊢
    exact (Nat.mul_le_mul_right _ (Nat.pow_le_pow_left hm _)).trans h

/-- A frequency more than `j` octaves above the reference is above the exact frequency of every `a` of at most `j` octaves. -/
theorem notAbove_eq_false {k : Constants} {a : Int} {m j : Nat} (hk : 0 < stepsPerOctave k)
    (ha : a ≤ (j * stepsPerOctave k : Nat)) (hm : k.refHz * 2 ^ j < m) : notAbove k a m = false := by
  have hpow : k.refHz ^ stepsPerOctave k * 2 ^ (j * stepsPerOctave k) < m ^ stepsPerOctave k := by
    rw [pow_mul, ← mul_pow]
    exact Nat.pow_lt_pow_left hm hk.ne'
  rw [← Bool.not_eq_true]
  rcases le_or_gt 0 a with h | h
  · rw [notAbove_iff_of_nonneg h, not_le]
    refine lt_of_le_of_lt (Nat.mul_le_mul_left _ (Nat.pow_le_pow_right (by omega) ?_)) hpow
    omega
  · rw [notAbove_iff_of_neg h, not_le]
    calc k.refHz ^ stepsPerOctave k
        ≤ k.refHz ^ stepsPerOctave k * 2 ^ (j * stepsPerOctave k) := Nat.le_mul_of_pos_right _ (by positivity)
      _ < m ^ stepsPerOctave k := hpow
      _ ≤ m ^ stepsPerOctave k * 2 ^ (-a).toNat := Nat.le_mul_of_pos_right _ (by positivity)

/-- The bit-by-bit search stays within its bits. -/
theorem greatestFrom_lt (p : Nat → Bool) (bits acc : Nat) :
    acc ≤ greatestFrom p bits acc ∧ greatestFrom p bits acc < acc + 2 ^ bits := by
  induction bits generalizing acc with
  | zero => simp [greatestFrom]
  | succ bits ih =>
    unfold greatestFrom
    rw [power_eq, pow_succ]
    split
    · have := ih (acc + 2 ^ bits); omega
    · have := ih acc; omega

/-- The bit-by-bit search finds the greatest number of its range that meets `p`, when `p` holds below every number it holds of. -/
theorem le_greatestFrom_iff {p : Nat → Bool} (hp : ∀ m m', m' ≤ m → p m = true → p m' = true) (bits acc : Nat)
    (hacc : p acc = true) {m : Nat} (hm : m < acc + 2 ^ bits) : m ≤ greatestFrom p bits acc ↔ p m = true := by
  induction bits generalizing acc with
  | zero =>
    simp only [pow_zero, greatestFrom] at *
    exact ⟨fun h => hp _ _ h hacc, fun _ => by omega⟩
  | succ bits ih =>
    rw [pow_succ] at hm
    unfold greatestFrom
    rw [power_eq]
    split
    · next h => exact ih _ h (by omega)
    · next h =>
      by_cases hlt : m < acc + 2 ^ bits
      · exact ih _ hacc hlt
      · have h1 := (greatestFrom_lt p bits acc).2
        constructor
        · intro hle; omega
        · intro hpm; exact absurd (hp _ _ (not_lt.mp hlt) hpm) h

/-- Zero is not above any exact frequency. -/
theorem notAbove_zero {k : Constants} (hk : 0 < stepsPerOctave k) (a : Int) : notAbove k a 0 = true := by
  rcases le_or_gt 0 a with h | h
  · rw [notAbove_iff_of_nonneg h, zero_pow hk.ne']; exact Nat.zero_le _
  · rw [notAbove_iff_of_neg h, zero_pow hk.ne', zero_mul]; exact Nat.zero_le _

/-- What `resolve` is where its result fits: the 16-bit numbers it is not below are those not above the exact frequency (R173,
R179). -/
theorem le_resolve_iff {k : Constants} {n : Data} {pw : Wheel} (hk : 0 < stepsPerOctave k)
    (hfit : notAbove k (bendExponent k n pw) 65536 = false) {m : Nat} (hm : m < 65536) :
    m ≤ (resolve k n pw).toNat ↔ notAbove k (bendExponent k n pw) m = true := by
  have hlt := (greatestFrom_lt (notAbove k (bendExponent k n pw)) 16 0).2
  have hr : (resolve k n pw).toNat = greatestFrom (notAbove k (bendExponent k n pw)) 16 0 := by
    simp only [resolve, hfit, hk.ne', Bool.false_eq_true, or_self, if_false, BitVec.toNat_ofNat]
    exact Nat.mod_eq_of_lt (by simpa using hlt)
  rw [hr]
  exact le_greatestFrom_iff (fun _ _ => notAbove_of_le) 16 0 (notAbove_zero hk _) (by simpa using hm)

/-- With the document's constants every result of `resolve` fits 16 bits, with room to spare (R174, R179). -/
theorem documentConstants_fit (n : Data) (pw : Wheel) {m : Nat} (hm : 14080 < m) :
    notAbove documentConstants (bendExponent documentConstants n pw) m = false := by
  have hn := n.isLt
  have hp := pw.isLt
  refine notAbove_eq_false (j := 5) (by decide) ?_ (by simpa [documentConstants] using hm)
  simp only [bendExponent, stepsPerOctave, documentConstants]
  push_cast
  omega

/-- The period where it fits 32 bits (R197). -/
theorem periodOf_toNat {k : Constants} {hz : BitVec 16} (h : k.tickHz / hz.toNat / 2 < 4294967296) :
    (periodOf k hz).toNat = k.tickHz / hz.toNat / 2 := by
  simp only [periodOf, h, if_true, BitVec.toNat_ofNat]
  exact Nat.mod_eq_of_lt h

end Sys2Proof.Machine
end

