-- ==== Sys2Proof/Laws/Turns.lean ====
section
/-! SUPPORT. What a turn and a step can do, said once each. -/

namespace Sys2Proof.Machine

/-- A byte that completes a message leaves the decoder idle and its other registers as they were (R113, R115). -/
theorem decodeByte_some {d : Decoder} {b : Byte} {m : Msg} (h : (decodeByte d b).2 = some m) :
    (decodeByte d b).1 = { d with state := .idle } := by
  unfold decodeByte at h ⊢
  repeat' split at h
  all_goals simp_all

/-- The byte step: it moves the decoder alone, or it executes one message in the idle decoder state (R110, R118). -/
theorem byteStep_cases (s : State) (b : Byte) :
    ((decodeByte s.dec b).2 = none ∧ byteStep s b = .next (s.acceptByte.setDec (decodeByte s.dec b).1)) ∨
    (∃ m, (decodeByte s.dec b).2 = some m ∧
      byteStep s b = exec (Instr.ofMsg m) (s.acceptByte.setDec { s.dec with state := .idle })) := by
  unfold byteStep
  split
  · next d h => exact .inl (by simp [h])
  · next d m h =>
    have hd := decodeByte_some (d := s.dec) (b := b) (m := m) (by rw [h])
    rw [h] at hd
    exact .inr ⟨m, by simp [h], by simp only at hd; rw [hd]⟩

/-- The engine's turn: halted, performing an operation, waiting, or accepting a byte (R110, R191, R231). -/
theorem engineTurn_cases (s : State) :
    (s.fault = true ∧ engineTurn s = .next s) ∨
    (s.fault = false ∧ ∃ op rest, s.ops = op :: rest ∧ engineTurn s = performOp op rest s) ∨
    (s.fault = false ∧ s.ops = [] ∧ (s.rxData = none ∨ s.initDone = false) ∧ engineTurn s = .next s) ∨
    (s.fault = false ∧ s.ops = [] ∧ s.initDone = true ∧ ∃ b, s.rxData = some b ∧ engineTurn s = byteStep s b) := by
  unfold engineTurn
  cases hf : s.fault
  · cases ho : s.ops with
    | cons op rest => exact .inr (.inl ⟨rfl, op, rest, rfl, rfl⟩)
    | nil =>
      cases hr : s.rxData with
      | none => exact .inr (.inr (.inl ⟨rfl, rfl, .inl rfl, rfl⟩))
      | some b =>
        cases hi : s.initDone
        · exact .inr (.inr (.inl ⟨rfl, rfl, .inr rfl, by simp [State.rxReady, hi]⟩))
        · exact .inr (.inr (.inr ⟨rfl, rfl, rfl, b, rfl, by simp [State.rxReady, hi, hf, ho]⟩))
  · exact .inl ⟨rfl, by simp⟩

/-- Driving `init_done`: no change of level, its rise, or its fall (R252). -/
theorem initDoneTurn_cases (v : Bool) (s : State) :
    (s.initDone = v ∧ initDoneTurn v s = .next s) ∨
    (s.initDone = false ∧ v = true ∧
      initDoneTurn v s = .next { s with initDone := true, queues := List.replicate s.cfg.nUnits [] }) ∨
    (s.initDone = true ∧ v = false ∧ initDoneTurn v s = .refused .initDoneFell) := by
  unfold initDoneTurn
  cases s.initDone <;> cases v <;> simp

/-- A supervisor pass changes the pairs alone, where there is a pass (R211, R217). -/
theorem supervisorPass_cases (s : State) :
    supervisorPass s = s ∨
    (s.cfg.family = .scanner ∧ s.initDone = true ∧ ∃ ps, s.sup = some ps ∧
      supervisorPass s = s.setPairs (passPairs s.cfg s.sense ps)) := by
  unfold supervisorPass
  split
  · next ps h =>
    split
    · next h' => exact .inr ⟨h'.1, h'.2, ps, h, rfl⟩
    · exact .inl rfl
  · exact .inl rfl

/-- A step is the next turn, taken in the state in which it is scheduled no more. -/
theorem step_eq (s : State) : step s = runTurn (nextTurn s) s.popTurn := rfl

end Sys2Proof.Machine
end

