-- ==== Sys2Proof/Tests/Slice0.lean ====
section
/-! SUPPORT. The model's own tests: the well-formedness smoke test, one written-out word per message kind, one or two steps per message
kind with results from spec/95_test_vectors.md, and for each statement with hypotheses a witness that meets them. -/

namespace Sys2Proof.Tests

open Sys2Proof Sys2Proof.Machine

/-! ### Well-formedness -/

theorem test_wf_refuses_noteOn_of_velocity_zero : (Instr.noteOn 1#4 69#7 0#7).wf = false := by decide
theorem test_wf_refuses_cc_120 : (Instr.cc 1#4 120#7 0#7).wf = false := by decide
theorem test_wf_refuses_cc_123 : (Instr.cc 1#4 123#7 0#7).wf = false := by decide
theorem test_wf_accepts_noteOn : (Instr.noteOn 1#4 69#7 1#7).wf = true := by decide
theorem test_config_wf : (exampleConfig .tone).wf ∧ (exampleConfig .click).wf ∧ (exampleConfig .scanner).wf := by decide
theorem test_config_wf_refuses_two_channels_on_one_unit :
    ¬ ({ defaultConfig with toneMap := exampleToneMap.set 0 (some 0) } : Config).wf := by decide
theorem test_config_wf_refuses_missing_click_unit : ¬ ({ exampleConfig .click with nClick := 1 } : Config).wf := by decide

/-! ### Decoding: the words are written out from the "encoding" strings of the opcode table -/

theorem test_decode_noteOff : decodeTableWord 24 0b100000010100010101000000 = some (.noteOff 1#4 69#7 64#7) := by decide
theorem test_decode_noteOnV0 : decodeTableWord 24 0b100100010100010100000000 = some (.noteOnV0 1#4 69#7) := by decide
theorem test_decode_noteOn : decodeTableWord 24 0b100100010100010101111111 = some (.noteOn 1#4 69#7 127#7) := by decide
theorem test_decode_polyPress : decodeTableWord 24 0b101011110100010101100100 = some (.polyPress 15#4 69#7 100#7) := by decide
theorem test_decode_ccAllSoundOff : decodeTableWord 24 0b101100010111100000000000 = some (.ccAllSoundOff 1#4 0#7) := by decide
theorem test_decode_ccAllNotesOff : decodeTableWord 24 0b101100010111101101111111 = some (.ccAllNotesOff 1#4 127#7) := by
  decide
theorem test_decode_cc : decodeTableWord 24 0b101100010111100100000011 = some (.cc 1#4 121#7 3#7) := by decide
theorem test_decode_progChg : decodeTableWord 16 0b1100001100000101 = some (.progChg 3#4 5#7) := by decide
theorem test_decode_chanPress : decodeTableWord 16 0b1101001001000000 = some (.chanPress 2#4 64#7) := by decide
theorem test_decode_pitchBend : decodeTableWord 24 0b111000010000000001010000 = some (.pitchBend 1#4 0#7 0x50#7) := by decide
theorem test_decode_reserved : decodeTableWord 24 0b111101010000000100000010 = some (.reserved 5#4 1#7 2#7) := by decide
theorem test_decode_refuses_data_byte_first : decode [0x45#8, 0x7F#8] = .error .notAStatusByte := by rfl
theorem test_decode_refuses_status_in_data_position :
    decode [0x91#8, 0xC5#8, 0x7F#8] = .error .statusInDataPosition := by rfl
theorem test_decode_refuses_incomplete : decode [0x91#8, 0x45#8] = .error .incomplete := by rfl
theorem test_encode_noteOn : encode (.noteOn 1#4 69#7 127#7) = [0x91#8, 0x45#8, 0x7F#8] := by decide

/-! ### Helpers: the vectors' clean start and PLAY state, and reading the outcome of a step -/

/-- The clean start of spec/95_test_vectors.md: reset, then `init_done = 1`. -/
def clean (f : Family) : State := { State.resetOf (exampleConfig f) with initDone := true }

/-- The vectors' PLAY state: `tbl[1] = (69, 8192, 127)` and `en[0] = 1`. -/
def play : State := ((clean .tone).setEntry 1#4 { note := 69#7, pw := 8192#14, vel := 127#8 }).setEnable 0 true

/-- The clean start with the constant `REF_HZ = 1` of the fault vectors. -/
def lowReference : State :=
  { clean .tone with cfg := { exampleConfig .tone with constants := { documentConstants with refHz := 1 } } }

/-- `s` with bytes on offer, after the decoder has taken others. -/
def offering (s : State) (taken bytes : List Byte) : State :=
  { s with dec := (decodeBytes s.dec taken).1, offered := bytes }

/-- A property of the next state. -/
def nextMeets (o : Host.Outcome State Fault Refusal) (p : State → Bool) : Bool :=
  match o with
  | .next t => p t
  | .fault _ => false
  | .refused _ => false

/-! ### The messages (expected values: spec/95_test_vectors.md part 2.2 and 2.5) -/

theorem test_noteOff_matching : nextMeets (exec (.noteOff 1#4 69#7 0#7) play) (fun t =>
    t.entry 1#4 == { note := 69#7, pw := 8192#14, vel := 0#8 } && t.ops == [.stop ⟨1#4, 69#7⟩]) = true := by decide
theorem test_noteOff_stale : nextMeets (exec (.noteOff 1#4 60#7 0#7) play) (fun t =>
    t.entry 1#4 == { note := 69#7, pw := 8192#14, vel := 127#8 } && t.ops == []) = true := by decide
theorem test_noteOnV0_matching : nextMeets (exec (.noteOnV0 1#4 69#7) play) (fun t =>
    (t.entry 1#4).vel == 0#8 && t.ops == [.stop ⟨1#4, 69#7⟩]) = true := by decide
theorem test_noteOn_tunes_and_starts : nextMeets (exec (.noteOn 1#4 72#7 1#7) play) (fun t =>
    t.entry 1#4 == { note := 72#7, pw := 8192#14, vel := 1#8 } &&
    t.ops == [.setFrequency ⟨1#4, 72#7⟩ 523#16, .start ⟨1#4, 72#7⟩]) = true := by decide
theorem test_noteOn_zero_frequency_faults : nextMeets (exec (.noteOn 1#4 0#7 64#7) lowReference) (fun t =>
    t.fault && t.ops == [] && t.entry 1#4 == Entry.reset) = true := by decide
theorem test_pitchBend_reprograms : nextMeets (exec (.pitchBend 1#4 0#7 0x60#7) play) (fun t =>
    t.entry 1#4 == { note := 69#7, pw := 12288#14, vel := 127#8 } &&
    t.ops == [.setFrequency ⟨1#4, 69#7⟩ 466#16]) = true := by decide
theorem test_ccAllSoundOff_keeps_velocity : nextMeets (exec (.ccAllSoundOff 1#4 0#7) play) (fun t =>
    (t.entry 1#4).vel == 127#8 && t.ops == [.stop ⟨1#4, 69#7⟩]) = true := by decide
theorem test_ccAllNotesOff_keeps_velocity : nextMeets (exec (.ccAllNotesOff 1#4 127#7) play) (fun t =>
    (t.entry 1#4).vel == 127#8 && t.ops == [.stop ⟨1#4, 69#7⟩]) = true := by decide
theorem test_cc_inert : exec (.cc 1#4 121#7 0#7) play = .next play := by rfl
theorem test_polyPress_inert : nextMeets (exec (.polyPress 1#4 69#7 50#7) play) (fun t => t.ops == []) = true := by decide
theorem test_progChg_inert : nextMeets (exec (.progChg 1#4 5#7) play) (fun t => t.ops == []) = true := by decide
theorem test_chanPress_inert : nextMeets (exec (.chanPress 1#4 64#7) play) (fun t => t.ops == []) = true := by decide
theorem test_reserved_inert : nextMeets (exec (.reserved 1#4 2#7 3#7) play) (fun t => t.ops == []) = true := by decide

/-! ### Steps -/

theorem test_step_status_byte_in_waitD2 : nextMeets (step (offering (clean .tone) [0x91#8, 0x45#8] [0x90#8])) (fun t =>
    t.dec == { state := .waitD1, cmd := 1#3, chan := 0#4, d1 := 69#7 } && t.offered == []) = true := by decide
theorem test_step_completes_noteOn : nextMeets (step (offering (clean .tone) [0x91#8, 0x45#8] [0x7F#8])) (fun t =>
    t.dec.state == .idle && t.ops == [.setFrequency ⟨1#4, 69#7⟩ 440#16, .start ⟨1#4, 69#7⟩]) = true := by decide
theorem test_step_not_ready_before_init_done :
    nextMeets (step { State.reset with offered := [0x91#8] }) (fun t => t.offered == [0x91#8] && t.dec.state == .idle) = true := by
  decide
theorem test_step_set_frequency : nextMeets (step ((clean .tone).setOps [.setFrequency ⟨1#4, 0#7⟩ 7#16])) (fun t =>
    t.trace == [.loadPeriod 0 71428#32] && t.queue 0 == [71428#32] && t.ops == []) = true := by decide
theorem test_step_start_in_click_family : nextMeets (step ((clean .click).setOps [.start ⟨9#4, 38#7⟩])) (fun t =>
    t.en == [false, true]) = true := by decide
theorem test_step_unmapped_note_in_click_family : nextMeets (step ((clean .click).setOps [.start ⟨9#4, 40#7⟩])) (fun t =>
    t.en == [false, false] && t.ops == []) = true := by decide
theorem test_step_pass : nextMeets (step { clean .scanner with sense := #v[true, false, true, true], sched := [.poll] })
    (fun t => t.dirLine 0 == some true && t.dirLine 1 == some false && t.dirLine 3 == some true) = true := by decide
theorem test_reset_keeps_no_fault : nextMeets (step { play.setFault with sched := [.rst] }) (fun t =>
    !t.fault && t.entry 1#4 == Entry.reset && !t.enabled 0) = true := by decide
theorem test_period_of_seven_hertz : periodOf documentConstants 7#16 = 71428#32 := by decide

/-! ### The host's fetch: from reset, the next step runs the word -/

theorem test_fetch_noteOn : nextMeets (step (State.reset.withFetchWord 24 0x91457F)) (fun t =>
    t.entry 1#4 == { note := 69#7, pw := 8192#14, vel := 127#8 } && t.ops.length == 2) = true := by decide
theorem test_fetch_progChg : nextMeets (step (State.reset.withFetchWord 16 0xC305)) (fun t =>
    t.dec == { state := .idle, cmd := 4#3, chan := 3#4, d1 := 0#7 } && t.offered == []) = true := by decide

/-! ### Witnesses: for each statement with hypotheses a state and operands that meet all of them -/

theorem inv_clean_tone : StateInv (clean .tone) where
  cfg_wf := by decide
  en_length := by decide
  queues_length := by decide
  queue_bound := by decide
  ops_length := by decide
  ops_nonzero := by intro k hz h; exact absurd h (by simp [clean, State.resetOf])
  sup_family := by decide
  vel_bound := by decide
  waitD2_cmd := by decide
  fault_ops := by decide
  before_init := by intro h; exact absurd h (by decide)

/-- The clean start with a schedule. -/
def turn (t : Turn) : State := { clean .tone with sched := [t] }

theorem inv_turn (t : Turn) : StateInv (turn t) := { inv_clean_tone with }

theorem inv_offering (bytes : List Byte) : StateInv (offering (clean .tone) [0x91#8, 0x45#8] bytes) :=
  { inv_clean_tone with
    waitD2_cmd := fun _ => rfl
    before_init := fun h => absurd h (show ¬ true = false by decide) }

/-- `SetFrequency` of channel 1's key is next, and the peripheral's queue holds `queue`, with depth 1. -/
def loading (queue : List (BitVec 32)) : State :=
  { clean .tone with
    cfg := { exampleConfig .tone with qdepth := 1 }
    queues := queue :: List.replicate 7 []
    ops := [.setFrequency ⟨1#4, 69#7⟩ 440#16] }

theorem witness_DecodeOfEncode : (Instr.noteOn 15#4 127#7 127#7).wf = true ∧ (Instr.cc 0#4 122#7 0#7).wf = true := by decide
theorem witness_DecodeAcceptsOnly : decode [0xC3#8, 0x05#8, 0x07#8] = .ok (.progChg 3#4 5#7, [0x07#8]) := by rfl
theorem witness_StatusByte : ∃ s b, ReadyForByte s ∧ s.rxData = some b ∧ isStatus b = true :=
  ⟨offering (clean .tone) [0x91#8, 0x45#8] [0xFF#8], 0xFF#8, by decide⟩
theorem witness_LastDataByte_one : ∃ s b, ReadyForByte s ∧ s.rxData = some b ∧ isStatus b = false ∧
    s.dec.state = .waitD1 ∧ (s.dec.cmd = 4#3 ∨ s.dec.cmd = 5#3) :=
  ⟨offering (clean .tone) [0xD2#8] [0x7F#8], 0x7F#8, by decide⟩
theorem witness_LastDataByte_two : ∃ s b, ReadyForByte s ∧ s.rxData = some b ∧ isStatus b = false ∧ s.dec.state = .waitD2 :=
  ⟨offering (clean .tone) [0x91#8, 0x45#8] [0x00#8], 0x00#8, by decide⟩
theorem witness_FirstDataByte : ∃ s b, ReadyForByte s ∧ s.rxData = some b ∧ isStatus b = false ∧ s.dec.state = .waitD1 ∧
    s.dec.cmd ≠ 4#3 ∧ s.dec.cmd ≠ 5#3 :=
  ⟨offering (clean .tone) [0xF0#8] [0x01#8], 0x01#8, by decide⟩
theorem witness_StrayDataByte : ∃ s b, ReadyForByte s ∧ s.rxData = some b ∧ isStatus b = false ∧ s.dec.state = .idle :=
  ⟨offering (clean .tone) [] [0x40#8], 0x40#8, by decide⟩
theorem witness_ByteAccepted_ready : ∃ s b, nextTurn s = .engine ∧ s.rxReady = true ∧ s.rxData = some b :=
  ⟨offering (clean .click) [] [0x40#8], 0x40#8, by decide⟩
theorem witness_ByteAccepted_waits : ∃ s : State, nextTurn s = .engine ∧ s.ops = [] ∧ s.rxReady = false ∧ s.rxData = some 0x91#8 :=
  ⟨{ State.reset with offered := [0x91#8] }, by decide⟩
theorem witness_ByteAccepted_no_byte : ∃ s : State, nextTurn s = .engine ∧ s.ops = [] ∧ s.rxReady = true ∧ s.rxData = none :=
  ⟨clean .tone, by decide⟩
theorem witness_ByteAccepted_port : ∃ s : State, s.cfg.uartPresent = false ∧ s.rxData = some 0x91#8 :=
  ⟨{ State.reset with offered := [0x91#8] }, by decide⟩
theorem witness_ByteAccepted_uart : ∃ s : State, s.cfg.uartPresent = true ∧ s.rxData = some 0x91#8 :=
  ⟨{ State.reset with
      cfg := { exampleConfig .tone with uartPresent := true }, uart := { rx := .idle, hold := some 0x91#8 } }, by decide⟩
theorem witness_ByteAccepted_held : ∃ s t : State, nextTurn s = .engine ∧ s.rxReady = false ∧ step s = .next t ∧
    s.rxData = some 0x91#8 ∧ s.ops ≠ [] :=
  ⟨{ (clean .tone).setOps [.start ⟨1#4, 69#7⟩] with offered := [0x91#8] }, _, by decide, by decide, rfl, by decide, by decide⟩
theorem witness_StepRuns : ∃ s b i, ReadyForByte s ∧ s.rxData = some b ∧ decode (heldBytes s.dec ++ [b]) = .ok (i, []) :=
  ⟨offering (clean .tone) [0x91#8, 0x45#8] [0x7F#8], 0x7F#8, .noteOn 1#4 69#7 127#7, by decide, by decide, by rfl⟩
theorem witness_Interrupted : isStatus 0x91#8 = true ∧ isStatus 0xC5#8 = true ∧ isStatus 0x7F#8 = false ∧
    takesOneDataByte (commandOf 0x91#8) = false := by decide
theorem witness_UnusedRegisters : ∃ s t, SameButUnusedRegisters s t ∧ s.dec.cmd ≠ t.dec.cmd ∧ s.dec.d1 ≠ t.dec.d1 :=
  ⟨clean .tone, (clean .tone).setDec { state := .idle, cmd := 6#3, chan := 9#4, d1 := 1#7 }, by
    refine ⟨⟨by decide, rfl⟩, by decide, by decide⟩⟩
theorem witness_NoteOff_match : ∃ (s : State) (c : Channel) (n : Data), n = (s.entry c).note := ⟨play, 1#4, 69#7, by decide⟩
theorem witness_NoteOff_stale : ∃ (s : State) (c : Channel) (n : Data), n ≠ (s.entry c).note := ⟨play, 1#4, 70#7, by decide⟩
theorem witness_NoteOn_completes : ∃ (s : State) (c : Channel) (n : Data) (hz : BitVec 16),
    hz = resolve s.cfg.constants n (s.entry c).pw ∧ hz ≠ 0#16 := ⟨play, 1#4, 69#7, 440#16, by decide⟩
theorem witness_NoteOn_unmapped_zero : ∃ (s : State) (c : Channel) (n : Data) (hz : BitVec 16),
    hz = resolve s.cfg.constants n (s.entry c).pw ∧ unitOf s.cfg ⟨c, n⟩ = none ∧ hz = 0#16 :=
  ⟨lowReference, 3#4, 0#7, 0#16, by decide⟩
theorem witness_NoteOn_faults : ∃ (s : State) (c : Channel) (n : Data) (hz : BitVec 16),
    hz = resolve s.cfg.constants n (s.entry c).pw ∧ hz = 0#16 ∧ (unitOf s.cfg ⟨c, n⟩).isSome = true :=
  ⟨lowReference, 1#4, 0#7, 0#16, by decide⟩
theorem witness_PitchBend_completes : ∃ (s : State) (c : Channel) (lo hi : Data) (pw : Wheel) (hz : BitVec 16),
    pw.toNat = 128 * hi.toNat + lo.toNat ∧ hz = resolve s.cfg.constants (s.entry c).note pw ∧ hz ≠ 0#16 :=
  ⟨play, 1#4, 127#7, 127#7, 16383#14, 493#16, by decide⟩
theorem witness_PitchBend_faults : ∃ (s : State) (c : Channel) (lo hi : Data) (pw : Wheel) (hz : BitVec 16),
    pw.toNat = 128 * hi.toNat + lo.toNat ∧ hz = resolve s.cfg.constants (s.entry c).note pw ∧ hz = 0#16 ∧
      (unitOf s.cfg ⟨c, (s.entry c).note⟩).isSome = true :=
  ⟨lowReference, 1#4, 127#7, 127#7, 16383#14, 0#16, by decide⟩
theorem witness_Inert_cc : (121#7 : Data) ≠ 120#7 ∧ (121#7 : Data) ≠ 123#7 := by decide
theorem witness_Silencers : ∃ i c val, i = Instr.ccAllSoundOff c val ∨ i = Instr.ccAllNotesOff c val :=
  ⟨.ccAllNotesOff 1#4 0#7, 1#4, 0#7, .inr rfl⟩
theorem witness_Confined : ∃ i s t, exec i s = .next t := ⟨.noteOn 1#4 69#7 127#7, clean .tone, _, rfl⟩
theorem witness_DocumentConstants : ∃ s : State, s.cfg.constants = documentConstants := ⟨clean .scanner, rfl⟩
theorem witness_Greatest : (0 : Int) = 4096 * (((71#7 : Data).toNat : Int) - 69) + ((0#14 : Wheel).toNat : Int) - 8192 ∧
    (-1 : Int) = 4096 * (((67#7 : Data).toNat : Int) - 69) + ((16383#14 : Wheel).toNat : Int) - 8192 := by decide
theorem witness_Monotone : 4096 * (((69#7 : Data).toNat : Int) - 69) + ((8192#14 : Wheel).toNat : Int) - 8192 ≤
    4096 * (((71#7 : Data).toNat : Int) - 69) + ((0#14 : Wheel).toNat : Int) - 8192 := by decide
theorem witness_Start : ∃ s, AtOperation s (.start ⟨14#4, 1#7⟩) [] ∧ unitOf s.cfg ⟨14#4, 1#7⟩ = some 7 ∧ 7 < s.en.length :=
  ⟨(clean .tone).setOps [.start ⟨14#4, 1#7⟩], by decide⟩
theorem witness_Stop : ∃ s, AtOperation s (.stop ⟨9#4, 36#7⟩) [] ∧ unitOf s.cfg ⟨9#4, 36#7⟩ = some 0 ∧ 0 < s.en.length :=
  ⟨(clean .click).setOps [.stop ⟨9#4, 36#7⟩], by decide⟩
theorem witness_Start_unmapped : ∃ s, AtOperation s (.start ⟨3#4, 1#7⟩) [] ∧ unitOf s.cfg ⟨3#4, 1#7⟩ = none :=
  ⟨(clean .tone).setOps [.start ⟨3#4, 1#7⟩], by decide⟩
theorem witness_SetFrequency_unmapped : ∃ s, AtOperation s (.setFrequency ⟨3#4, 1#7⟩ 0#16) [] ∧
    unitOf s.cfg ⟨3#4, 1#7⟩ = none := ⟨(clean .click).setOps [.setFrequency ⟨3#4, 1#7⟩ 0#16], by decide⟩
theorem witness_SetFrequency_ready : ∃ s, AtOperation s (.setFrequency ⟨1#4, 69#7⟩ 440#16) [] ∧
    unitOf s.cfg ⟨1#4, 69#7⟩ = some 0 ∧ 0 < s.queues.length ∧ s.lpReady 0 = true := ⟨loading [], by decide⟩
theorem witness_SetFrequency_waits : ∃ s, AtOperation s (.setFrequency ⟨1#4, 69#7⟩ 440#16) [] ∧
    unitOf s.cfg ⟨1#4, 69#7⟩ = some 0 ∧ 0 < s.queues.length ∧ s.lpReady 0 = false := ⟨loading [1#32], by decide⟩
theorem witness_ZeroFrequency : ∃ s, AtOperation s (.setFrequency ⟨1#4, 0#7⟩ 0#16) [.start ⟨1#4, 0#7⟩] ∧
    (unitOf s.cfg ⟨1#4, 0#7⟩).isSome = true :=
  ⟨(clean .tone).setOps [.setFrequency ⟨1#4, 0#7⟩ 0#16, .start ⟨1#4, 0#7⟩], by decide⟩
theorem witness_Unmapped : ∃ s op rest, AtOperation s op rest ∧ unitOf s.cfg op.key = none :=
  ⟨(clean .tone).setOps [.stop ⟨3#4, 69#7⟩], .stop ⟨3#4, 69#7⟩, [], by decide⟩
theorem witness_UnitMap : (exampleConfig .click).wf ∧ unitOf (exampleConfig .click) ⟨9#4, 38#7⟩ = some 1 := by decide
theorem witness_Pending_performs : ∃ s t k, nextTurn s = .engine ∧ s.ops = [.setFrequency k 440#16] ∧ step s = .next t ∧
    s.fault = false ∧ unitOf s.cfg k = some 0 ∧ s.lpReady 0 = true :=
  ⟨loading [], _, ⟨1#4, 69#7⟩, by decide, rfl, rfl, by decide, by decide, by decide⟩
theorem witness_Pending_waits : ∃ s t k, nextTurn s = .engine ∧ s.ops = [.setFrequency k 440#16] ∧ step s = .next t ∧
    unitOf s.cfg k = some 0 ∧ s.lpReady 0 = false :=
  ⟨loading [1#32], _, ⟨1#4, 69#7⟩, by decide, rfl, rfl, by decide, by decide⟩
theorem witness_Pending_halted : ∃ s t k, nextTurn s = .engine ∧ s.ops = [.stop k] ∧ step s = .next t ∧ s.fault = true :=
  ⟨(play.setOps [.stop ⟨1#4, 69#7⟩]).setFault, _, ⟨1#4, 69#7⟩, by decide, rfl, rfl, by decide⟩
theorem inv_loading (queue : List (BitVec 32)) (h : queue.length ≤ 1) : StateInv (loading queue) where
  cfg_wf := show ({ exampleConfig .tone with qdepth := 1 } : Config).wf by decide
  en_length := rfl
  queues_length := rfl
  queue_bound := by
    intro q hq
    rcases List.mem_cons.mp hq with rfl | hq
    · exact h
    · rw [List.eq_of_mem_replicate hq]; exact Nat.zero_le _
  ops_length := by simp [loading]
  ops_nonzero := by
    intro k hz hm _
    simp only [loading, List.mem_singleton, Op.setFrequency.injEq] at hm
    simp [hm.2]
  sup_family := inv_clean_tone.sup_family
  vel_bound := inv_clean_tone.vel_bound
  waitD2_cmd := inv_clean_tone.waitD2_cmd
  fault_ops := fun hf => absurd hf (show ¬ false = true by decide)
  before_init := fun hc => absurd hc (show ¬ true = false by decide)
theorem witness_Port_ready : ∃ s, StateInv s ∧ nextTurn s = .engine ∧ s.lpOffer = some (0, 1136#32) ∧ s.lpReady 0 = true :=
  ⟨loading [], inv_loading [] (by decide), by decide⟩
theorem witness_Port_waits : ∃ s, StateInv s ∧ nextTurn s = .engine ∧ s.lpOffer = some (0, 1136#32) ∧ s.lpReady 0 = false :=
  ⟨loading [1#32], inv_loading [1#32] (by decide), by decide⟩
theorem witness_Drain : ∃ s, StateInv s ∧ nextTurn s = .drain 7 ∧ 7 < s.cfg.nUnits := ⟨turn (.drain 7), inv_turn _, by decide⟩
theorem witness_ThreeSteps : ∃ s b, StateInv s ∧ s.sched = [] ∧ ReadyForByte s ∧ s.rxData = some b ∧
    decode (heldBytes s.dec ++ [b]) = .ok (.noteOn 1#4 69#7 127#7, []) ∧ unitOf s.cfg ⟨1#4, 69#7⟩ = some 0 ∧
    440#16 = resolve s.cfg.constants 69#7 (s.entry 1#4).pw ∧ s.lpReady 0 = true :=
  ⟨offering (clean .tone) [0x91#8, 0x45#8] [0x7F#8], 0x7F#8, inv_offering _, by decide, by decide, by decide, by rfl,
    by decide, by decide, by decide⟩
theorem witness_Pass : ∃ (s : State) (ps : Vector Pair 4), nextTurn s = .poll ∧ s.cfg.family = .scanner ∧ s.initDone = true ∧
    s.sup = some ps ∧ (s.sense[0] = s.cfg.sensorActiveHigh ∧ ps[0].latched = false) ∧
    (s.sense[1] = s.cfg.sensorActiveHigh ∧ ps[1].latched = true) ∧ s.sense[3] ≠ s.cfg.sensorActiveHigh :=
  ⟨{ clean .scanner with
      sched := [.poll], sense := #v[true, true, true, false],
      sup := some #v[⟨false, false⟩, ⟨true, true⟩, ⟨false, false⟩, ⟨false, true⟩] },
    #v[⟨false, false⟩, ⟨true, true⟩, ⟨false, false⟩, ⟨false, true⟩], by decide⟩
theorem witness_NoPass_family : ∃ s : State, nextTurn s = .poll ∧ s.cfg.family ≠ .scanner := ⟨turn .poll, by decide⟩
theorem witness_NoPass_init : ∃ s : State, nextTurn s = .poll ∧ s.cfg.family = .scanner ∧ s.initDone = false :=
  ⟨{ State.resetOf (exampleConfig .scanner) with sched := [.poll] }, by decide⟩
theorem witness_Flip : ∃ p : Pair, p.latched = false ∧ runsOf false [false, true, false, true] = 2 := ⟨⟨true, false⟩, by decide⟩
theorem witness_Writer_offer : ∃ s t : State, nextTurn s = .offer 0x91#8 ∧ s.cfg.uartPresent = false ∧ step s = .next t ∧
    t.offered = [0x45#8, 0x91#8] := ⟨{ turn (.offer 0x91#8) with offered := [0x45#8] }, _, by decide, by decide, rfl, by decide⟩
theorem witness_Writer_offer_uart : ∃ s t : State, nextTurn s = .offer 0x91#8 ∧ s.cfg.uartPresent = true ∧ step s = .next t :=
  ⟨{ turn (.offer 0x91#8) with cfg := { exampleConfig .tone with uartPresent := true } }, _, by decide, by decide, rfl⟩
theorem witness_Writer_sense : ∃ s t : State, nextTurn s = .sense 2 true ∧ s.cfg.family = .scanner ∧ step s = .next t ∧
    t.sense = #v[false, false, true, false] :=
  ⟨{ clean .scanner with sched := [.sense 2 true] }, _, by decide, by decide, rfl, by decide⟩
theorem witness_Writer_sense_elsewhere : ∃ s t : State, nextTurn s = .sense 2 true ∧ s.cfg.family ≠ .scanner ∧ step s = .next t :=
  ⟨turn (.sense 2 true), _, by decide, by decide, rfl⟩
theorem witness_Writer_accepts : ∃ s t : State, nextTurn s = .engine ∧ step s = .next t ∧ s.offered ≠ [] ∧
    t.offered = s.offered.tail := ⟨offering (clean .tone) [0x91#8, 0x45#8] [0x7F#8, 0x80#8], _, by decide, rfl, by decide, by decide⟩
theorem witness_Sticky : ∃ s t : State, step s = .next t ∧ s.fault = true ∧ nextTurn s ≠ .rst := ⟨play.setFault, _, rfl, by decide⟩
theorem witness_Halted : ∃ s : State, s.fault = true ∧ nextTurn s = .engine := ⟨play.setFault, by decide⟩
theorem witness_Precise : ∃ s t : State, step s = .next t ∧ s.fault = false ∧ t.fault = true :=
  ⟨offering lowReference [0x91#8, 0x00#8] [0x40#8], _, rfl, by decide, by decide⟩
theorem witness_NoFault : ∃ s t : State, s.cfg.constants = documentConstants ∧ step s = .next t ∧ Safe s :=
  ⟨offering (clean .tone) [0x91#8, 0x45#8] [0x7F#8], _, rfl, rfl, by decide⟩
theorem witness_ResetTurn : ∃ s t : State, nextTurn s = .rst ∧ step s = .next t ∧ t.initDone = false :=
  ⟨{ play.setFault with sched := [.rst] }, _, by decide, rfl, by decide⟩
theorem witness_BeforeInit : ∃ s t : State, StateInv s ∧ s.initDone = false ∧ step s = .next t ∧ nextTurn s = .engine :=
  ⟨State.reset, _,
    { inv_clean_tone with before_init := fun _ => ⟨rfl, rfl, rfl, fun u => by
        simp [State.enabled, State.reset, State.resetOf, List.getD_eq_getElem?_getD, List.getElem?_replicate]
        split <;> simp⟩ }, by decide, rfl, by decide⟩
theorem witness_InitDone_rise : ∃ s : State, nextTurn s = .initDone true ∧ s.initDone = false :=
  ⟨{ State.reset with sched := [.initDone true] }, by decide⟩
theorem witness_InitDone_stays : ∃ s : State, nextTurn s = .initDone true ∧ s.initDone = true := ⟨turn (.initDone true), by decide⟩
theorem witness_InitDone_falls : ∃ s : State, nextTurn s = .initDone false ∧ s.initDone = true := ⟨turn (.initDone false), by decide⟩
theorem witness_ConfigurationFixed : ∃ s t : State, step s = .next t := ⟨turn .rst, _, rfl⟩
theorem witness_InvAtReset : ∃ cfg : Config, cfg.wf := ⟨exampleConfig .scanner, by decide⟩
theorem witness_StepKeepsInv : ∃ s t : State, StateInv s ∧ step s = .next t := ⟨loading [], _, inv_loading [] (by decide), rfl⟩
theorem witness_NeverStops : ∃ s : State, StateInv s ∧ nextTurn s ≠ .initDone false := ⟨turn .engine, inv_turn _, by decide⟩
theorem witness_StepKeepsSilent : ∃ s t : State, s.cfg.wf ∧ SilentIsUndriven s ∧ step s = .next t :=
  ⟨clean .tone, _, by decide, by
    intro _ c u _ _
    simp [State.enabledAfterOps, clean, State.enabled, State.resetOf, List.getD_eq_getElem?_getD, List.getElem?_replicate]
    split <;> simp, rfl⟩
theorem witness_SilentQuiet : ∃ s : State, SilentIsUndriven s ∧ s.ops = [] ∧ s.cfg.family ≠ .click ∧ (s.entry 1#4).vel = 0#8 ∧
    unitOf s.cfg ⟨1#4, (s.entry 1#4).note⟩ = some 0 :=
  ⟨clean .tone, by
    intro _ c u _ _
    simp [State.enabledAfterOps, clean, State.enabled, State.resetOf, List.getD_eq_getElem?_getD, List.getElem?_replicate]
    split <;> simp, by decide⟩
/-- The clean start with the UART built and the bit times of a frame to come. -/
def receiving (hold : Option Byte) (bits : List Bool) : State :=
  { clean .tone with
    cfg := { exampleConfig .tone with uartPresent := true }
    uart := { rx := .idle, hold := hold }
    sched := bits.map .uartBit ++ [.engine] }
theorem witness_UartFrame : ∃ (s : State) (rest : List Turn), s.cfg.uartPresent = true ∧ s.uart = { rx := .idle, hold := none } ∧
    s.sched = (frameOf 0x91#8).map .uartBit ++ rest := ⟨receiving none (frameOf 0x91#8), [.engine], by decide⟩
theorem witness_UartOverrun : ∃ (s : State) (rest : List Turn), s.cfg.uartPresent = true ∧
    s.uart = { rx := .idle, hold := some 0x45#8 } ∧ s.sched = (frameOf 0x91#8).map .uartBit ++ rest :=
  ⟨receiving (some 0x45#8) (frameOf 0x91#8), [.engine], by decide⟩
theorem witness_UartBadStop : ∃ (s : State) (rest : List Turn), s.cfg.uartPresent = true ∧ s.uart.rx = .idle ∧
    s.sched = ((frameOf 0x91#8).take 9 ++ [false]).map .uartBit ++ rest :=
  ⟨receiving none ((frameOf 0x91#8).take 9 ++ [false]), [.engine], by decide⟩

end Sys2Proof.Tests
end

namespace Sys2Proof.Machine

/-! ## The byte-stream decoder: one rule per arm, and the step that takes a byte -/

/-- The commands that take one data byte are ProgramChange and ChannelPressure (R84). -/
theorem takesOneDataByte_iff (cmd : Command) : takesOneDataByte cmd = true ↔ cmd = 4#3 ∨ cmd = 5#3 := by
  simp [takesOneDataByte]

section DecodeByte

variable {d : Decoder} {b : Byte}

/-- R111, R112, R116: a status byte opens a message whatever the decoder held, and emits none. -/
theorem decodeByte_status (hb : isStatus b = true) : decodeByte d b = (openMessage d b, none) := by
  unfold decodeByte
  cases d.state <;> simp [hb]

/-- R113: the only data byte of a message emits it. -/
theorem decodeByte_waitD1_oneDataByte (hd : d.state = .waitD1) (hb : isStatus b = false)
    (hc : takesOneDataByte d.cmd = true) :
    decodeByte d b = ({ d with state := .idle }, some ⟨d.cmd, d.chan, payloadOf b, 0#7⟩) := by
  simp [decodeByte, hd, hb, hc]

/-- R114: the first of two data bytes is held. -/
theorem decodeByte_waitD1_twoDataBytes (hd : d.state = .waitD1) (hb : isStatus b = false)
    (hc : takesOneDataByte d.cmd = false) :
    decodeByte d b = ({ d with d1 := payloadOf b, state := .waitD2 }, none) := by
  simp [decodeByte, hd, hb, hc]

/-- R115: the second data byte emits the message. -/
theorem decodeByte_waitD2_data (hd : d.state = .waitD2) (hb : isStatus b = false) :
    decodeByte d b = ({ d with state := .idle }, some ⟨d.cmd, d.chan, d.d1, payloadOf b⟩) := by
  simp [decodeByte, hd, hb]

/-- R117: a data byte while no message is open is dropped. -/
theorem decodeByte_idle_data (hd : d.state = .idle) (hb : isStatus b = false) : decodeByte d b = (d, none) := by
  simp [decodeByte, hd, hb]

end DecodeByte

theorem byteStep_of_no_message {s : State} {b : Byte} {d : Decoder} (h : decodeByte s.dec b = (d, none)) :
    byteStep s b = .next (s.acceptByte.setDec d) := by
  simp [byteStep, h]

theorem byteStep_of_message {s : State} {b : Byte} {d : Decoder} {m : Msg} (h : decodeByte s.dec b = (d, some m)) :
    byteStep s b = exec (Instr.ofMsg m) (s.acceptByte.setDec d) := by
  simp [byteStep, h]

@[simp] theorem State.acceptByte_setDec_dec (s : State) : s.acceptByte.setDec s.dec = s.acceptByte := by
  unfold State.acceptByte; split <;> rfl

/-- `rx_ready`, clause by clause (R110). -/
theorem State.rxReady_iff (s : State) :
    s.rxReady = true ↔ s.initDone = true ∧ s.fault = false ∧ s.ops = [] := by
  simp [State.rxReady, and_assoc]

/-- The byte interface is read from the configuration, the UART and the sender's bytes alone (R110, R120). -/
theorem State.rxData_congr {s t : State} (hc : t.cfg = s.cfg) (hu : t.uart = s.uart) (ho : t.offered = s.offered) :
    t.rxData = s.rxData := by
  simp only [State.rxData, hc, hu, ho]

theorem step_of_engine {s : State} (h : nextTurn s = .engine) : step s = engineTurn s.popTurn := by
  rw [step_eq, h]; rfl

theorem engineTurn_of_rxReady {s : State} {b : Byte} (hr : s.rxReady = true) (hb : s.rxData = some b) :
    engineTurn s = byteStep s b := by
  obtain ⟨-, hfault, hops⟩ := s.rxReady_iff.mp hr
  simp [engineTurn, hfault, hops, hb, hr]

/-- With `ops` empty, a context that accepts no byte waits (R110). -/
theorem engineTurn_of_no_byte {s : State} (hops : s.ops = []) (h : s.rxReady = false ∨ s.rxData = none) :
    engineTurn s = .next s := by
  rcases engineTurn_cases s with ⟨-, he⟩ | ⟨-, op, rest, hcons, -⟩ | ⟨-, -, -, he⟩ | ⟨hfault, -, hinit, b, hb, -⟩
  · exact he
  · simp [hops] at hcons
  · exact he
  · have hready : s.rxReady = true := s.rxReady_iff.mpr ⟨hinit, hfault, hops⟩
    simp [hready, hb] at h

/-- On the engine's turn a ready context takes the byte on offer (R110). -/
theorem step_of_readyForByte {s : State} {b : Byte} (h : ReadyForByte s) (hb : s.rxData = some b) :
    step s = byteStep s.popTurn b := by
  obtain ⟨hturn, hready⟩ := h
  rw [step_of_engine hturn]
  exact engineTurn_of_rxReady (s.popTurn.rxReady_iff.mpr hready) hb

/-- Performing an operation neither accepts a byte nor moves the decoder (R72, R110). -/
theorem performOp_keeps_rxData_dec {op : Op} {rest : List Op} {s t : State} (h : performOp op rest s = .next t) :
    t.rxData = s.rxData ∧ t.dec = s.dec := by
  rcases performOp_cases op rest s with ⟨he, -⟩ | ⟨-, he⟩ | ⟨_, _, _, -, -, -, -, he⟩ | ⟨_, _, _, -, -, he⟩ |
    ⟨_, _, _, -, -, -, he⟩ <;> rw [he] at h <;> cases h <;> exact ⟨State.rxData_congr rfl rfl rfl, rfl⟩

/-- While `rx_ready = 0` the engine's turn leaves the byte on offer and the decoder (R110). -/
theorem engineTurn_keeps_rxData_dec {s t : State} (hr : s.rxReady = false) (h : engineTurn s = .next t) :
    t.rxData = s.rxData ∧ t.dec = s.dec := by
  rcases engineTurn_cases s with ⟨-, he⟩ | ⟨-, op, rest, -, he⟩ | ⟨-, -, -, he⟩ | ⟨hfault, hops, hinit, -⟩
  · cases he.symm.trans h
    exact ⟨rfl, rfl⟩
  · exact performOp_keeps_rxData_dec (he.symm.trans h)
  · cases he.symm.trans h
    exact ⟨rfl, rfl⟩
  · exact absurd (s.rxReady_iff.mpr ⟨hinit, hfault, hops⟩) (by simp [hr])

/-- Settles O6: in every decoder state the byte opens a message, and the registers it leaves are the ones stated. -/
theorem statusByteOpensMessageInEveryState : Obligations.StatusByteOpensMessageInEveryState := by
  intro s b hready hb hstatus
  rw [step_of_readyForByte hready hb, byteStep_of_no_message (decodeByte_status hstatus)]
  rfl

/-- Settles O7: the two arms of the decoder that emit, each executed in the state of `State.messageAccepted`. -/
theorem lastDataByteEmitsMessage : Obligations.LastDataByteEmitsMessage := by
  intro s b hready hb hdata
  rw [step_of_readyForByte hready hb]
  refine ⟨fun hstate hcmd => ?_, fun hstate => ?_⟩
  · have hone := (takesOneDataByte_iff s.dec.cmd).mpr hcmd
    exact byteStep_of_message (decodeByte_waitD1_oneDataByte hstate hdata hone)
  · exact byteStep_of_message (decodeByte_waitD2_data hstate hdata)

/-- Settles O8: every command but 4 and 5 takes two data bytes, so the first one is held. -/
theorem firstDataByteIsHeld : Obligations.FirstDataByteIsHeld := by
  intro s b hready hb hdata hstate h4 h5
  have htwo : takesOneDataByte s.dec.cmd = false := by
    rw [Bool.eq_false_iff, Ne, takesOneDataByte_iff]
    exact not_or.mpr ⟨h4, h5⟩
  rw [step_of_readyForByte hready hb]
  exact byteStep_of_no_message (decodeByte_waitD1_twoDataBytes hstate hdata htwo)

/-- Settles O9: the decoder answers its own registers and no message. -/
theorem strayDataByteIsDropped : Obligations.StrayDataByteIsDropped := by
  intro s b hready hb hdata hstate
  rw [step_of_readyForByte hready hb, byteStep_of_no_message (decodeByte_idle_data (d := s.popTurn.dec) hstate hdata),
    State.acceptByte_setDec_dec]

/-- Settles O10: each clause is a fact about the engine's turn, in the state in which that turn is scheduled no more. -/
theorem byteAcceptedExactlyWhenReady : Obligations.ByteAcceptedExactlyWhenReady := by
  intro s
  refine ⟨s.rxReady_iff, fun b hturn hready hb => ?_, fun huart => ?_, fun huart => ?_, fun t hturn hready hstep => ?_,
    fun hturn hops hnone => ?_⟩
  · exact step_of_readyForByte ⟨hturn, s.rxReady_iff.mp hready⟩ hb
  · simp [State.rxData, State.acceptByte, huart]
  · simp [State.rxData, State.acceptByte, huart]
  · rw [step_of_engine hturn] at hstep
    exact engineTurn_keeps_rxData_dec (s := s.popTurn) hready hstep
  · rw [step_of_engine hturn]
    exact engineTurn_of_no_byte (s := s.popTurn) hops hnone

end Sys2Proof.Machine

namespace Sys2Proof.Machine

/-! ## The interpreter: what a message leaves unchanged, and the effect of each message kind -/

section MessageFrame

variable {c : Channel} {s t : State}

theorem MessageFrame.refl (c : Channel) (s : State) : MessageFrame c s s := by
  constructor <;> intros <;> rfl

/-- Issuing an operation stays within the frame of every message (R191). -/
theorem MessageFrame.issue (h : MessageFrame c s t) (op : Op) : MessageFrame c s (t.issue op) :=
  { h with }

/-- Writing the message's own table entry stays within its frame (R68). -/
theorem MessageFrame.setEntry (h : MessageFrame c s t) (e : Entry) : MessageFrame c s (t.setEntry c e) :=
  { h with entry := fun c' hne => (t.entry_setEntry_ne hne e).trans (h.entry c' hne) }

theorem MessageFrame.setNote (h : MessageFrame c s t) (v : Data) : MessageFrame c s (t.setNote c v) :=
  h.setEntry _

theorem MessageFrame.setPw (h : MessageFrame c s t) (v : Wheel) : MessageFrame c s (t.setPw c v) :=
  h.setEntry _

theorem MessageFrame.setVel (h : MessageFrame c s t) (v : BitVec 8) : MessageFrame c s (t.setVel c v) :=
  h.setEntry _

end MessageFrame

section Release

variable {c : Channel} {note : Data} {s : State}

theorem releaseNote_of_stored (h : note = (s.entry c).note) :
    releaseNote c note s = (s.setVel c 0#8).issue (.stop ⟨c, note⟩) :=
  (releaseNote_cases c note s).elim And.right fun hother => absurd h hother.1

theorem releaseNote_of_other (h : note ≠ (s.entry c).note) : releaseNote c note s = s :=
  (releaseNote_cases c note s).elim (fun hstored => absurd hstored.1 h) And.right

/-- R141: releasing the stored note clears its velocity and issues one `Stop`. -/
theorem releaseNote_stored_effect (h : note = (s.entry c).note) :
    (releaseNote c note s).entry c = { s.entry c with vel := 0#8 } ∧
      (releaseNote c note s).ops = s.ops ++ [.stop ⟨c, note⟩] ∧ (releaseNote c note s).fault = s.fault := by
  rw [releaseNote_of_stored h]
  simp

/-- Releasing any note, stored or not, stays within the channel's frame. -/
theorem releaseNote_frame (c : Channel) (note : Data) (s : State) : MessageFrame c s (releaseNote c note s) := by
  rcases releaseNote_cases c note s with ⟨-, h⟩ | ⟨-, h⟩
  · rw [h]
    exact ((MessageFrame.refl c s).setVel _).issue _
  · rw [h]
    exact .refl c s

end Release

/-- `check_freq` passes exactly when the frequency is nonzero or the key has no unit (R198). -/
theorem freqInvalid_eq_false_iff (cfg : Config) (k : Key) (hz : BitVec 16) :
    freqInvalid cfg k hz = false ↔ hz ≠ 0#16 ∨ unitOf cfg k = none := by
  rw [Bool.eq_false_iff, Ne, freqInvalid_iff, not_and_or, Option.not_isSome_iff_eq_none]

/-- R143: what NOTEON answers where `check_freq` passes. -/
theorem execNoteOn_of_freqValid {c : Channel} {note vel : Data} {s : State}
    (h : freqInvalid s.cfg ⟨c, note⟩ (resolve s.cfg.constants note (s.entry c).pw) = false) :
    execNoteOn c note vel s = .next
      ((((s.setNote c note).issue (.setFrequency ⟨c, note⟩ (resolve s.cfg.constants note (s.entry c).pw))).issue
        (.start ⟨c, note⟩)).setVel c (velocityOf vel)) :=
  (execNoteOn_cases c note vel s).elim (fun hraise => absurd hraise.1 (by simp [h])) And.right

/-- R150: what PITCHBEND answers where `check_freq` passes. -/
theorem execPitchBend_of_freqValid {c : Channel} {lo hi : Data} {s : State}
    (h : freqInvalid s.cfg ⟨c, (s.entry c).note⟩ (resolve s.cfg.constants (s.entry c).note (wheelOf lo hi)) = false) :
    execPitchBend c lo hi s = .next
      ((s.setPw c (wheelOf lo hi)).issue
        (.setFrequency ⟨c, (s.entry c).note⟩ (resolve s.cfg.constants (s.entry c).note (wheelOf lo hi)))) :=
  (execPitchBend_cases c lo hi s).elim (fun hraise => absurd hraise.1 (by simp [h])) And.right

/-- R64: the pitch-wheel value is `hi` above the seven bits of `lo`. -/
theorem wheelOf_toNat (lo hi : Data) : (wheelOf lo hi).toNat = 128 * hi.toNat + lo.toNat := by
  have hzext (d : Data) : (d.zeroExtend 14).toNat = d.toNat := BitVec.toNat_setWidth_of_le (by decide)
  have hhigh : (hi.zeroExtend 14 <<< 7).toNat = 2 ^ 7 * hi.toNat := by
    rw [BitVec.toNat_shiftLeft, hzext, Nat.shiftLeft_eq, Nat.mod_eq_of_lt (by omega), Nat.mul_comm]
  rw [wheelOf, BitVec.toNat_or, hhigh, hzext, ← Nat.two_pow_add_eq_or_of_lt lo.isLt]

/-- Settles O15: NOTEOFF is `releaseNote`, of the stored note and of any other. -/
theorem noteOffStopsStoredNoteOnly : Obligations.NoteOffStopsStoredNoteOnly := by
  intro s c note vel
  refine ⟨fun hstored => ?_, fun hother => congrArg _ (releaseNote_of_other hother)⟩
  obtain ⟨hentry, hops, hfault⟩ := releaseNote_stored_effect hstored
  exact ⟨releaseNote c note s, rfl, hentry, hops, hfault, releaseNote_frame c note s⟩

/-- Settles O16: NOTEON_V0 and NOTEOFF are the same `releaseNote`. -/
theorem zeroVelocityNoteOnActsAsNoteOff : Obligations.ZeroVelocityNoteOnActsAsNoteOff := by
  intro s c note vel
  exact ⟨rfl, releaseNote c note s, rfl, rfl, releaseNote_frame c note s, releaseNote_stored_effect, releaseNote_of_other⟩

/-- Settles O17: under its hypothesis `check_freq` passes, and the effects are read off the four writes of R143. -/
theorem noteOnStoresAndIssues : Obligations.NoteOnStoresAndIssues := by
  rintro s c note vel hz rfl hvalid
  have hpass := (freqInvalid_eq_false_iff s.cfg ⟨c, note⟩ _).mpr hvalid
  refine ⟨_, execNoteOn_of_freqValid hpass, ?_, ?_, ?_, ?_⟩
  · simp [velocityOf]
  · simp
  · simp
  · exact ((((MessageFrame.refl c s).setNote _).issue _).issue _).setVel _

/-- Settles O18: the stated bend is `wheelOf lo hi`, `check_freq` passes, and the effects are those of R150's two writes. -/
theorem pitchBendStoresAndReprograms : Obligations.PitchBendStoresAndReprograms := by
  rintro s c lo hi pw hz hpw rfl hvalid
  obtain rfl : pw = wheelOf lo hi := BitVec.eq_of_toNat_eq (hpw.trans (wheelOf_toNat lo hi).symm)
  have hpass := (freqInvalid_eq_false_iff s.cfg ⟨c, (s.entry c).note⟩ _).mpr hvalid
  refine ⟨_, execPitchBend_of_freqValid hpass, ?_, ?_, ?_, ?_⟩
  · simp
  · simp
  · simp
  · exact ((MessageFrame.refl c s).setPw _).issue _

/-- Settles O21: both messages are `silenceChannel`, which issues one operation and writes nothing. -/
theorem channelSilencersIssueStopOnly : Obligations.ChannelSilencersIssueStopOnly := by
  intro s c val i hi
  have hexec : exec i s = .next (silenceChannel c s) := by rcases hi with rfl | rfl <;> rfl
  exact ⟨silenceChannel c s, hexec, rfl, rfl, rfl, (MessageFrame.refl c s).issue _⟩

/-- Settles O20: the arm of `exec` of each of these messages is `noEffect`, whatever the operands. -/
theorem inertMessagesChangeNothing : Obligations.InertMessagesChangeNothing :=
  fun _ _ _ _ => ⟨rfl, rfl, rfl, fun _ _ => rfl, rfl⟩

end Sys2Proof.Machine

namespace Sys2Proof.Machine

/-! ## The resolver: the comparison of R173 against the real-number formula of R170 -/

/-- The exact frequency `REF_HZ × 2^(a / (BEND_DIV × SEMIS_PER_OCT))` that `resolve` truncates (R170, R173). -/
noncomputable def exactFrequency (k : Constants) (a : Int) : ℝ :=
  (k.refHz : ℝ) * (2 : ℝ) ^ ((a : ℝ) / (stepsPerOctave k : ℝ))

theorem exactFrequency_nonneg (k : Constants) (a : Int) : 0 ≤ exactFrequency k a := by
  unfold exactFrequency
  positivity

/-- Raised to the steps of an octave the exact frequency has an integer exponent: the derivation of R173. -/
theorem exactFrequency_pow_stepsPerOctave {k : Constants} (hk : 0 < stepsPerOctave k) (a : Int) :
    exactFrequency k a ^ stepsPerOctave k = (k.refHz : ℝ) ^ stepsPerOctave k * (2 : ℝ) ^ a := by
  have hsteps : (stepsPerOctave k : ℝ) ≠ 0 := Nat.cast_ne_zero.mpr hk.ne'
  rw [exactFrequency, mul_pow, ← Real.rpow_mul_natCast zero_le_two, div_mul_cancel₀ _ hsteps, Real.rpow_intCast]

/-- The comparison of R173, which uses natural numbers alone, is the comparison with the exact frequency. -/
theorem notAbove_iff_le_exactFrequency {k : Constants} (hk : 0 < stepsPerOctave k) (a : Int) (m : Nat) :
    notAbove k a m = true ↔ (m : ℝ) ≤ exactFrequency k a := by
  rw [← pow_le_pow_iff_left₀ m.cast_nonneg (exactFrequency_nonneg k a) hk.ne', exactFrequency_pow_stepsPerOctave hk]
  rcases le_or_gt 0 a with ha | ha
  · obtain ⟨e, rfl⟩ := Int.eq_ofNat_of_zero_le ha
    rw [notAbove_iff_of_nonneg ha, Int.toNat_natCast, zpow_natCast]
    exact_mod_cast Iff.rfl
  · obtain ⟨e, rfl⟩ := Int.exists_eq_neg_ofNat ha.le
    rw [notAbove_iff_of_neg ha, neg_neg, Int.toNat_natCast, zpow_neg, zpow_natCast, ← div_eq_mul_inv,
      le_div_iff₀ (by positivity)]
    exact_mod_cast Iff.rfl

/-- With the document's constants `resolve` is the greatest natural number not above the exact frequency, among all the
naturals: beyond 16 bits none is (R173, R179). -/
theorem le_resolve_documentConstants_iff (n : Data) (pw : Wheel) (m : Nat) :
    m ≤ (resolve documentConstants n pw).toNat ↔
      notAbove documentConstants (bendExponent documentConstants n pw) m = true := by
  rcases lt_or_ge m 65536 with hm | hm
  · exact le_resolve_iff (by decide) (documentConstants_fit n pw (by decide)) hm
  · have hlt := (resolve documentConstants n pw).isLt
    rw [documentConstants_fit n pw (by omega)]
    exact iff_of_false (by omega) Bool.false_ne_true

/-- With the document's constants `resolve` truncates the exact frequency (R170, R172). -/
theorem resolve_documentConstants_eq_floor (n : Data) (pw : Wheel) :
    ((resolve documentConstants n pw).toNat : Int) =
      ⌊exactFrequency documentConstants (bendExponent documentConstants n pw)⌋ := by
  have hpos := exactFrequency_nonneg documentConstants (bendExponent documentConstants n pw)
  rw [← Int.natCast_floor_eq_floor hpos, Nat.cast_inj]
  refine eq_of_forall_le_iff fun m => ?_
  rw [le_resolve_documentConstants_iff, notAbove_iff_le_exactFrequency (by decide), Nat.le_floor_iff hpos]

/-- The exact frequency of `n` and `pw` with the document's constants, in the form of R170. -/
theorem exactFrequency_documentConstants (n : Data) (pw : Wheel) :
    exactFrequency documentConstants (bendExponent documentConstants n pw) =
      (440 : ℝ) * (2 : ℝ) ^ ((((n.toNat : ℝ) + ((pw.toNat : ℝ) - 8192) / 4096) - 69) / 12) := by
  have hexponent : (bendExponent documentConstants n pw : ℝ) / (stepsPerOctave documentConstants : ℝ) =
      (((n.toNat : ℝ) + ((pw.toNat : ℝ) - 8192) / 4096) - 69) / 12 := by
    simp only [bendExponent, stepsPerOctave, documentConstants]
    push_cast
    ring
  rw [exactFrequency, hexponent]
  norm_num [documentConstants]

/-- Settles O25: `resolve` truncates the exact frequency, whose exponent over one denominator is that of R170. -/
theorem resolveIsFloorOfRealFormula : Obligations.ResolveIsFloorOfRealFormula := by
  intro n pw
  rw [resolve_documentConstants_eq_floor, exactFrequency_documentConstants]

end Sys2Proof.Machine

namespace Sys2Proof.Machine

/-! ## The dispatch multiplexer: the engine's turn with an operation at the head of `ops` -/

section OperationFrame

variable {s t : State}

theorem OperationFrame.popTurn (s : State) : OperationFrame s s.popTurn := by
  constructor <;> rfl

theorem OperationFrame.setOps (h : OperationFrame s t) (ops : List Op) : OperationFrame s (t.setOps ops) :=
  { h with }

/-- Driving an enable stays within the frame of every operation (R195, R196). -/
theorem OperationFrame.setEnable (h : OperationFrame s t) (u : Nat) (v : Bool) : OperationFrame s (t.setEnable u v) :=
  { h with }

/-- Loading a period stays within the frame of every operation (R197). -/
theorem OperationFrame.enqueue (h : OperationFrame s t) (u : Nat) (p : BitVec 32) : OperationFrame s (t.enqueue u p) :=
  { h with }

theorem OperationFrame.record (h : OperationFrame s t) (o : Out) : OperationFrame s (t.record o) :=
  { h with }

end OperationFrame

section Perform

variable {s : State} {op : Op} {k : Key} {u : Nat} {v : Bool} {hz : BitVec 16} {rest : List Op}

/-- R194: START and STOP of a key without a unit. -/
theorem performEnable_of_unmapped (h : unitOf s.cfg k = none) :
    performEnable op k v rest s = performUnmapped op rest s := by
  simp [performEnable, h]

/-- R194: SETFREQUENCY of a key without a unit, at any frequency. -/
theorem performSetFrequency_of_unmapped (h : unitOf s.cfg k = none) :
    performSetFrequency k hz rest s = .next (performUnmapped (.setFrequency k hz) rest s) := by
  simp [performSetFrequency, h]

/-- R194: what performing an operation without a unit answers, whatever its kind. -/
theorem performOp_of_unmapped (h : unitOf s.cfg op.key = none) :
    performOp op rest s = .next (performUnmapped op rest s) := by
  cases op with
  | setFrequency k hz => exact performSetFrequency_of_unmapped h
  | start k => exact congrArg _ (performEnable_of_unmapped h)
  | stop k => exact congrArg _ (performEnable_of_unmapped h)

/-- R195, R196: the write that performing START or STOP of a mapped key makes. -/
theorem performEnable_of_mapped (h : unitOf s.cfg k = some u) :
    performEnable op k v rest s = ((s.setOps rest).setEnable u v).record (.enable u v) := by
  simp [performEnable, h]

/-- R195, R196: what performing START (`v` high) or STOP (`v` low) of a mapped key answers. -/
theorem performOp_enable_of_mapped (hop : (op = .start k ∧ v = true) ∨ (op = .stop k ∧ v = false))
    (hu : unitOf s.cfg k = some u) :
    performOp op rest s = .next (((s.setOps rest).setEnable u v).record (.enable u v)) := by
  rcases hop with ⟨rfl, rfl⟩ | ⟨rfl, rfl⟩ <;> exact congrArg _ (performEnable_of_mapped hu)

/-- R197: what performing SETFREQUENCY of a mapped key answers once its unit's queue has room. -/
theorem performSetFrequency_of_ready (hu : unitOf s.cfg k = some u) (hhz : hz ≠ 0#16) (hr : s.lpReady u = true) :
    performSetFrequency k hz rest s = .next
      (((s.setOps rest).enqueue u (periodOf s.cfg.constants hz)).record
        (.loadPeriod u (periodOf s.cfg.constants hz))) := by
  simp [performSetFrequency, hu, hhz, hr]

/-- R192: SETFREQUENCY of a mapped key waits while its unit's queue is full. -/
theorem performSetFrequency_of_full (hu : unitOf s.cfg k = some u) (hhz : hz ≠ 0#16) (hr : s.lpReady u = false) :
    performSetFrequency k hz rest s = .next s := by
  simp [performSetFrequency, hu, hhz, hr]

/-- On the engine's turn the head operation is performed (R191). -/
theorem step_of_atOperation (h : AtOperation s op rest) : step s = performOp op rest s.popTurn := by
  obtain ⟨hturn, hfault, hops⟩ := h
  simp [step_of_engine hturn, engineTurn, hfault, hops]

end Perform

/-- Settles O33: the operation is removed and the removal recorded, and neither leaves the frame of an operation. -/
theorem unmappedOperationIsInert : Obligations.UnmappedOperationIsInert := by
  intro s op rest hat hnone
  have hstep : step s = .next (performUnmapped op rest s.popTurn) :=
    (step_of_atOperation hat).trans (performOp_of_unmapped (s := s.popTurn) hnone)
  exact ⟨_, hstep, rfl, rfl, rfl, rfl, ((OperationFrame.popTurn s).setOps _).record _⟩

/-- Settles O30: the mapped case writes one enable; the unmapped one is that of every operation. -/
theorem startAndStopDriveOneEnable : Obligations.StartAndStopDriveOneEnable := by
  intro s k op v rest hop hat
  refine ⟨fun u hu hlt => ?_, fun hnone => ?_⟩
  · have hstep : step s = .next (((s.popTurn.setOps rest).setEnable u v).record (.enable u v)) :=
      (step_of_atOperation hat).trans (performOp_enable_of_mapped (s := s.popTurn) hop hu)
    refine ⟨_, hstep, ?_, fun u' hne => ?_, rfl, rfl, rfl, ?_⟩
    · exact (s.popTurn.setOps rest).enabled_setEnable_self hlt v
    · exact (s.popTurn.setOps rest).enabled_setEnable_ne hne v
    · exact (((OperationFrame.popTurn s).setOps _).setEnable _ _).record _
  · have hkey : op.key = k := by rcases hop with ⟨rfl, -⟩ | ⟨rfl, -⟩ <;> rfl
    obtain ⟨t, hstep, hops, hen, hqueues, -, hframe⟩ := unmappedOperationIsInert s op rest hat (hkey ▸ hnone)
    exact ⟨t, hstep, hops, hen, hqueues, hframe⟩

/-- Settles O31: with room the period loaded is `periodOf`, without it the turn changes nothing; the unmapped case is that of
every operation. -/
theorem setFrequencyLoadsPeriodOrWaits : Obligations.SetFrequencyLoadsPeriodOrWaits := by
  intro s k hz rest hat
  refine ⟨fun u hu hlt hhz => ⟨fun hready => ?_, fun hfull => ?_⟩, fun hnone => ?_⟩
  · have hstep : step s = .next (((s.popTurn.setOps rest).enqueue u (periodOf s.cfg.constants hz)).record
        (.loadPeriod u (periodOf s.cfg.constants hz))) :=
      (step_of_atOperation hat).trans (performSetFrequency_of_ready (s := s.popTurn) hu hhz hready)
    refine ⟨_, periodOf s.cfg.constants hz, hstep, periodOf_toNat, ?_, fun u' hne => ?_, rfl, rfl, rfl, ?_⟩
    · exact (s.popTurn.setOps rest).queue_enqueue_self hlt _
    · exact (s.popTurn.setOps rest).queue_enqueue_ne hne _
    · exact (((OperationFrame.popTurn s).setOps _).enqueue _ _).record _
  · exact (step_of_atOperation hat).trans (performSetFrequency_of_full (s := s.popTurn) hu hhz hfull)
  · obtain ⟨t, hstep, hops, hen, hqueues, -, hframe⟩ :=
      unmappedOperationIsInert s (.setFrequency k hz) rest hat hnone
    exact ⟨t, hstep, hops, hen, hqueues, hframe⟩

end Sys2Proof.Machine

namespace Sys2Proof.Machine

/-! ## Reset -/

section Reset

variable (cfg : Config)

/-- R26 to R28: every entry of the channel table takes its reset value. -/
theorem State.resetOf_entry (c : Channel) : (State.resetOf cfg).entry c = Entry.reset :=
  Vector.getElem_replicate c.isLt

/-- R31: no enable is driven after reset, on the units that exist and on those that do not. -/
theorem State.resetOf_enabled (u : Nat) : (State.resetOf cfg).enabled u = false :=
  List.getElem?_getD_replicate_default_eq false cfg.nUnits u

/-- R35: the scanner's pairs take `DIR_RESET` and are not latched. -/
theorem State.resetOf_sup (h : cfg.family = .scanner) :
    ∃ ps, (State.resetOf cfg).sup = some ps ∧ ∀ i : Fin 4, ps[i.val] = Pair.reset cfg.dirReset[i.val] := by
  refine ⟨#v[Pair.reset cfg.dirReset[0], Pair.reset cfg.dirReset[1], Pair.reset cfg.dirReset[2],
    Pair.reset cfg.dirReset[3]], by simp [State.resetOf, h], fun i => ?_⟩
  fin_cases i <;> rfl

theorem hasResetValues_resetOf : HasResetValues (State.resetOf cfg) where
  decState := rfl
  entries := State.resetOf_entry cfg
  enables := State.resetOf_enabled cfg
  ops := rfl
  fault := rfl
  pairs hfamily := by
    obtain ⟨ps, hsup, hps⟩ := State.resetOf_sup cfg hfamily
    exact ⟨ps, hsup, fun i => by rw [hps i]; exact ⟨rfl, rfl⟩⟩
  hold := rfl

end Reset

/-- The reset values speak of the engine's registers alone, so what the environment keeps over `rst` does not matter. -/
theorem hasResetValues_resetTurn (s : State) : HasResetValues (resetTurn s) := by
  obtain ⟨hdec, hentries, henables, hops, hfault, hpairs, hhold⟩ := hasResetValues_resetOf s.cfg
  exact ⟨hdec, hentries, henables, hops, hfault, hpairs, hhold⟩

theorem step_of_rst {s : State} (h : nextTurn s = .rst) : step s = .next (resetTurn s.popTurn) := by
  rw [step_eq, h]; rfl

/-- R110: the engine accepts no byte before `init_done`. -/
theorem State.rxReady_of_not_initDone {s : State} (h : s.initDone = false) : s.rxReady = false := by
  simp [State.rxReady, h]

/-- Settles O48: `rst` answers the reset state of the configuration with the environment's own state kept. -/
theorem resetGivesResetValues : Obligations.ResetGivesResetValues :=
  ⟨fun cfg => ⟨hasResetValues_resetOf cfg, rfl⟩, fun s hturn =>
    ⟨resetTurn s.popTurn, step_of_rst hturn, hasResetValues_resetTurn s.popTurn, rfl, State.rxReady_of_not_initDone⟩⟩

end Sys2Proof.Machine

namespace Sys2Proof

/-! ## Encoding: a message's bytes, and the two directions of the round trip -/

/-- The message an instruction stands for: `Instr.ofMsg` read backwards, `d2 = 0` where no second data byte travels. -/
def Instr.toMsg : Instr → Msg
  | .noteOff c note vel => ⟨0#3, c, note, vel⟩
  | .noteOnV0 c note => ⟨1#3, c, note, 0#7⟩
  | .noteOn c note vel => ⟨1#3, c, note, vel⟩
  | .polyPress c note pressure => ⟨2#3, c, note, pressure⟩
  | .ccAllSoundOff c val => ⟨3#3, c, Sys2Proof.ccAllSoundOff, val⟩
  | .ccAllNotesOff c val => ⟨3#3, c, Sys2Proof.ccAllNotesOff, val⟩
  | .cc c ctl val => ⟨3#3, c, ctl, val⟩
  | .progChg c prog => ⟨4#3, c, prog, 0#7⟩
  | .chanPress c pressure => ⟨5#3, c, pressure, 0#7⟩
  | .pitchBend c lo hi => ⟨6#3, c, lo, hi⟩
  | .reserved n a b => ⟨7#3, n, a, b⟩

/-- The bytes that carry a message: its status byte, and one or two data bytes (R81, R84). -/
def Msg.bytes (m : Msg) : List Byte :=
  if takesOneDataByte m.cmd then [statusByte m.cmd m.ch, dataByte m.d1]
  else [statusByte m.cmd m.ch, dataByte m.d1, dataByte m.d2]

theorem encode_eq_bytes_toMsg (i : Instr) : encode i = i.toMsg.bytes := by
  cases i <;> rfl

/-- A well-formed instruction is what its own message selects (R87, R140). -/
theorem Instr.ofMsg_toMsg {i : Instr} (h : i.wf = true) : Instr.ofMsg i.toMsg = i := by
  cases i with
  | noteOn c note vel => simp_all [Instr.wf, Instr.toMsg, Instr.ofMsg]
  | cc c ctl val => simp_all [Instr.wf, Instr.toMsg, Instr.ofMsg]
  | noteOff | noteOnV0 | polyPress | ccAllSoundOff | ccAllNotesOff | progChg | chanPress | pitchBend | reserved => rfl

theorem Instr.ofMsg_d2_irrelevant {cmd : Command} (h : takesOneDataByte cmd = true) (c : Channel) (d1 d2 d2' : Data) :
    Instr.ofMsg ⟨cmd, c, d1, d2⟩ = Instr.ofMsg ⟨cmd, c, d1, d2'⟩ := by
  rcases (Machine.takesOneDataByte_iff cmd).mp h with rfl | rfl <;> rfl

/-- The commands other than 4 and 5 take two data bytes (R84). -/
theorem takesOneDataByte_eq_false_iff (cmd : Command) :
    takesOneDataByte cmd = false ↔ cmd = 0#3 ∨ cmd = 1#3 ∨ cmd = 2#3 ∨ cmd = 3#3 ∨ cmd = 6#3 ∨ cmd = 7#3 := by
  revert cmd; decide

/-- A message that carries a second data field is found again in the instruction it selects. -/
theorem Instr.toMsg_ofMsg {m : Msg} (h : takesOneDataByte m.cmd = false) : (Instr.ofMsg m).toMsg = m := by
  obtain ⟨cmd, c, d1, d2⟩ := m
  rcases (takesOneDataByte_eq_false_iff cmd).mp h with rfl | rfl | rfl | rfl | rfl | rfl
  · rfl
  · by_cases h2 : d2 = 0#7 <;> simp [Instr.ofMsg, Instr.toMsg, h2]
  · rfl
  · by_cases h120 : d1 = Sys2Proof.ccAllSoundOff
    · simp [Instr.ofMsg, Instr.toMsg, h120]
    · by_cases h123 : d1 = Sys2Proof.ccAllNotesOff
      · subst h123; rfl
      · simp [Instr.ofMsg, Instr.toMsg, h120, h123]
  · rfl
  · rfl

/-- The instruction a message selects is encoded in the bytes that carry the message. -/
theorem encode_ofMsg (m : Msg) : encode (Instr.ofMsg m) = m.bytes := by
  cases hone : takesOneDataByte m.cmd
  · rw [encode_eq_bytes_toMsg, Instr.toMsg_ofMsg hone]
  · obtain ⟨cmd, c, d1, d2⟩ := m
    rcases (Machine.takesOneDataByte_iff cmd).mp hone with rfl | rfl <;> rfl

theorem decode_bytes (m : Msg) (rest : List Byte) : decode (m.bytes ++ rest) = .ok (Instr.ofMsg m, rest) := by
  cases hone : takesOneDataByte m.cmd
  · simp [Msg.bytes, decode, hone]
  · simp [Msg.bytes, decode, hone, Instr.ofMsg_d2_irrelevant hone m.ch m.d1 0#7 m.d2]

/-- What `decode` accepts begins with the bytes of one message. -/
theorem decode_eq_ok {bs rest : List Byte} {i : Instr} (h : decode bs = .ok (i, rest)) :
    ∃ m, i = Instr.ofMsg m ∧ bs = m.bytes ++ rest := by
  unfold decode at h
  split at h
  · cases h
  next b0 bs =>
  split at h
  next hb0 =>
    split at h
    · cases h
    next b1 bs =>
    split at h
    · cases h
    next hb1 =>
    rw [Bool.not_eq_true] at hb1
    split at h
    next hone =>
      cases h
      exact ⟨_, rfl, by simp [Msg.bytes, hone, statusByte_of_isStatus hb0, dataByte_of_not_isStatus hb1]⟩
    next htwo =>
      split at h
      · cases h
      next b2 bs =>
      split at h
      · cases h
      next hb2 =>
      rw [Bool.not_eq_true] at hb2
      cases h
      exact ⟨_, rfl, by
        simp [Msg.bytes, htwo, statusByte_of_isStatus hb0, dataByte_of_not_isStatus hb1, dataByte_of_not_isStatus hb2]⟩
  next => cases h

/-- Settles O1: an instruction is encoded as the bytes of its message, and these decode to what the message selects. -/
theorem decodeOfEncodeReturnsInstruction : Obligations.DecodeOfEncodeReturnsInstruction := by
  intro i rest hwf
  rw [encode_eq_bytes_toMsg, decode_bytes, Instr.ofMsg_toMsg hwf]

/-- Settles O2: what is accepted begins with the bytes of a message, and these are the encoding of what it selects. -/
theorem decodeAcceptsOnlyEncodings : Obligations.DecodeAcceptsOnlyEncodings := by
  intro bs i rest h
  obtain ⟨m, rfl, rfl⟩ := decode_eq_ok h
  exact ⟨Instr.ofMsg_wf m, by rw [encode_ofMsg]⟩

/-- Settles O3: the decoder evaluated on each word. -/
theorem writtenOutWordsDecode : Obligations.WrittenOutWordsDecode := by
  unfold Obligations.WrittenOutWordsDecode
  decide

/-- Settles O4: the command is a literal in each clause, so the remaining choice is that of a data field. -/
theorem commandAndDataFieldSelectKind : Obligations.CommandAndDataFieldSelectKind :=
  fun _ _ _ => ⟨rfl, rfl, rfl, rfl, rfl, rfl, rfl, rfl⟩

/-- Settles O5. -/
theorem pitchWheelLowGroupFirst : Obligations.PitchWheelLowGroupFirst := Machine.wheelOf_toNat

end Sys2Proof

namespace Sys2Proof.Machine

/-! ## Streams of bytes: what the decoder emits, and the registers that cannot be told apart -/

@[simp] theorem decodeBytes_nil (d : Decoder) : decodeBytes d [] = (d, []) := rfl

theorem decodeBytes_cons_of_no_message {d d' : Decoder} {b : Byte} (h : decodeByte d b = (d', none)) (bs : List Byte) :
    decodeBytes d (b :: bs) = decodeBytes d' bs := by
  simp [decodeBytes, h]

theorem decodeBytes_cons_of_message {d d' : Decoder} {b : Byte} {m : Msg} (h : decodeByte d b = (d', some m))
    (bs : List Byte) : decodeBytes d (b :: bs) = ((decodeBytes d' bs).1, m :: (decodeBytes d' bs).2) := by
  simp [decodeBytes, h]

/-- R119: whatever the registers hold, the bytes of a message emit one message, which selects the same instruction. -/
theorem decodeBytes_bytes (d : Decoder) (m : Msg) :
    ∃ m', Instr.ofMsg m' = Instr.ofMsg m ∧ (decodeBytes d m.bytes).2 = [m'] ∧ (decodeBytes d m.bytes).1.state = .idle := by
  obtain ⟨cmd, c, d1, d2⟩ := m
  have hopen : decodeByte d (statusByte cmd c) = (⟨.waitD1, cmd, c, d.d1⟩, none) := by
    rw [decodeByte_status (isStatus_statusByte cmd c)]
    simp [openMessage]
  cases htakes : takesOneDataByte cmd
  · have hfirst : decodeByte ⟨.waitD1, cmd, c, d.d1⟩ (dataByte d1) = (⟨.waitD2, cmd, c, d1⟩, none) := by
      rw [decodeByte_waitD1_twoDataBytes rfl (isStatus_dataByte d1) htakes]
      simp
    have hlast : decodeByte ⟨.waitD2, cmd, c, d1⟩ (dataByte d2) = (⟨.idle, cmd, c, d1⟩, some ⟨cmd, c, d1, d2⟩) := by
      rw [decodeByte_waitD2_data rfl (isStatus_dataByte d2)]
      simp
    refine ⟨⟨cmd, c, d1, d2⟩, rfl, ?_⟩
    simp [Msg.bytes, htakes, decodeBytes_cons_of_no_message hopen, decodeBytes_cons_of_no_message hfirst,
      decodeBytes_cons_of_message hlast]
  · have hlast : decodeByte ⟨.waitD1, cmd, c, d.d1⟩ (dataByte d1) = (⟨.idle, cmd, c, d.d1⟩, some ⟨cmd, c, d1, 0#7⟩) := by
      rw [decodeByte_waitD1_oneDataByte rfl (isStatus_dataByte d1) htakes]
      simp
    refine ⟨⟨cmd, c, d1, 0#7⟩, Instr.ofMsg_d2_irrelevant htakes c d1 0#7 d2, ?_⟩
    simp [Msg.bytes, htakes, decodeBytes_cons_of_no_message hopen, decodeBytes_cons_of_message hlast]

/-- Settles O12: the encoding is the bytes of one message, and they emit it from any registers. -/
theorem wellFramedMessageEmitsExactlyOne : Obligations.WellFramedMessageEmitsExactlyOne := by
  intro d i hwf
  obtain ⟨m, hm, hemits⟩ := decodeBytes_bytes d i.toMsg
  rw [encode_eq_bytes_toMsg]
  exact ⟨m, hm.trans (Instr.ofMsg_toMsg hwf), hemits⟩

/-- The registers that an open message uses are those of its status byte (R111). -/
theorem openMessage_agrees (d e : Decoder) (b : Byte) : DecoderAgrees (openMessage d b) (openMessage e b) :=
  ⟨rfl, fun _ => ⟨rfl, rfl⟩, nofun⟩

/-- An idle decoder uses none of its other registers. -/
theorem decoderAgrees_idle (d e : Decoder) : DecoderAgrees { d with state := .idle } { e with state := .idle } :=
  ⟨rfl, fun hopen => absurd rfl hopen, nofun⟩

/-- No byte tells apart two decoders that agree on the registers of the open message: they emit alike and go on agreeing
(R23, R24). -/
theorem decodeByte_agrees {d e : Decoder} (h : DecoderAgrees d e) (b : Byte) :
    DecoderAgrees (decodeByte d b).1 (decodeByte e b).1 ∧ (decodeByte d b).2 = (decodeByte e b).2 := by
  obtain ⟨hstate, hopen, hheld⟩ := h
  cases hb : isStatus b
  · cases hd : d.state with
    | idle =>
      rw [decodeByte_idle_data hd hb, decodeByte_idle_data (hstate ▸ hd) hb]
      exact ⟨⟨hstate, hopen, hheld⟩, rfl⟩
    | waitD1 =>
      obtain ⟨hcmd, hchan⟩ := hopen (by simp [hd])
      cases hone : takesOneDataByte d.cmd
      · rw [decodeByte_waitD1_twoDataBytes hd hb hone, decodeByte_waitD1_twoDataBytes (hstate ▸ hd) hb (hcmd ▸ hone)]
        exact ⟨⟨rfl, fun _ => ⟨hcmd, hchan⟩, fun _ => rfl⟩, rfl⟩
      · rw [decodeByte_waitD1_oneDataByte hd hb hone, decodeByte_waitD1_oneDataByte (hstate ▸ hd) hb (hcmd ▸ hone)]
        exact ⟨decoderAgrees_idle d e, by rw [hcmd, hchan]⟩
    | waitD2 =>
      obtain ⟨hcmd, hchan⟩ := hopen (by simp [hd])
      rw [decodeByte_waitD2_data hd hb, decodeByte_waitD2_data (hstate ▸ hd) hb]
      exact ⟨decoderAgrees_idle d e, by rw [hcmd, hchan, hheld hd]⟩
  · rw [decodeByte_status hb, decodeByte_status hb]
    exact ⟨openMessage_agrees d e b, rfl⟩

/-- Decoders that agree on the registers of the open message emit the same messages over every stream. -/
theorem decodeBytes_agrees {d e : Decoder} (h : DecoderAgrees d e) (bs : List Byte) :
    (decodeBytes d bs).2 = (decodeBytes e bs).2 := by
  induction bs generalizing d e with
  | nil => rfl
  | cons b bs ih =>
    obtain ⟨hagrees, hemits⟩ := decodeByte_agrees h b
    cases hd : decodeByte d b with
    | mk d' emitted =>
      cases he : decodeByte e b with
      | mk e' emitted' =>
        rw [hd, he] at hagrees hemits
        obtain rfl : emitted = emitted' := hemits
        cases emitted with
        | none =>
          rw [decodeBytes_cons_of_no_message hd, decodeBytes_cons_of_no_message he]
          exact ih hagrees
        | some m =>
          rw [decodeBytes_cons_of_message hd, decodeBytes_cons_of_message he]
          exact congrArg (m :: ·) (ih hagrees)

/-- Over a stream that begins with a status byte the emitted messages do not depend on what the decoder held (R112, R116). -/
theorem decodeBytes_status_irrelevant {b : Byte} (hb : isStatus b = true) (d e : Decoder) (bs : List Byte) :
    (decodeBytes d (b :: bs)).2 = (decodeBytes e (b :: bs)).2 := by
  rw [decodeBytes_cons_of_no_message (decodeByte_status hb), decodeBytes_cons_of_no_message (decodeByte_status hb)]
  exact decodeBytes_agrees (openMessage_agrees d e b) bs

/-- Settles O13: no byte before the second status byte emits, and from there on what the decoder held does not matter. -/
theorem interruptedMessageEmitsNothing : Obligations.InterruptedMessageEmitsNothing := by
  intro d b0 b bs hb0 hb
  refine ⟨?_, fun x hx htwo => ?_⟩
  · rw [decodeBytes_cons_of_no_message (decodeByte_status hb0)]
    exact decodeBytes_status_irrelevant hb _ _ bs
  · rw [decodeBytes_cons_of_no_message (decodeByte_status hb0),
      decodeBytes_cons_of_no_message (decodeByte_waitD1_twoDataBytes (d := openMessage d b0) rfl hx htwo)]
    exact decodeBytes_status_irrelevant hb _ _ bs

end Sys2Proof.Machine

namespace Sys2Proof.Machine

/-! ## The message step: its frame, and when it enters the fault state -/

/-- Entering the fault state stays within the frame of every message (R231). -/
theorem MessageFrame.setFault {c : Channel} {s t : State} (h : MessageFrame c s t) : MessageFrame c s t.setFault :=
  { h with }

/-- Settles O22: the frame and the issued operations, read off each of the six things a message can do. -/
theorem messageEffectsConfinedToItsChannel : Obligations.MessageEffectsConfinedToItsChannel := by
  intro i s t h
  rcases exec_cases i s with he | he | ⟨c, note, -, rfl, he⟩ | ⟨c, rfl, he⟩ | ⟨c, note, vel, hz, rfl, -, he⟩ |
    ⟨c, lo, hi, hz, rfl, -, he⟩ <;> cases he.symm.trans h
  · exact ⟨.refl _ s, [], by simp⟩
  · exact ⟨(MessageFrame.refl _ s).setFault, [], by simp⟩
  · exact ⟨((MessageFrame.refl _ s).setVel _).issue _, [.stop ⟨channelField i, note⟩], by simp [Op.key]⟩
  · exact ⟨(MessageFrame.refl _ s).issue _, [.stop ⟨channelField i, (s.entry (channelField i)).note⟩], by simp [Op.key]⟩
  · exact ⟨((((MessageFrame.refl _ s).setNote _).issue _).issue _).setVel _, [.setFrequency ⟨c, note⟩ hz, .start ⟨c, note⟩],
      by simp [Op.key, channelField]⟩
  · exact ⟨((MessageFrame.refl _ s).setPw _).issue _, [.setFrequency ⟨c, (s.entry c).note⟩ hz],
      by simp [Op.key, channelField]⟩

section Exec

variable {i : Instr} {c : Channel} {s t : State}

theorem exec_frame (h : exec i s = .next t) : MessageFrame (channelField i) s t :=
  (messageEffectsConfinedToItsChannel i s t h).1

/-- The messages that resolve a frequency to check, and that frequency (R143, R150). -/
def checkedFrequency (s : State) : Instr → Option (BitVec 16)
  | .noteOn c note _ => some (resolve s.cfg.constants note (s.entry c).pw)
  | .pitchBend c lo hi => some (resolve s.cfg.constants (s.entry c).note (wheelOf lo hi))
  | _ => none

theorem checkedFrequency_isSome {hz : BitVec 16} (h : checkedFrequency s i = some hz) :
    (∃ c note vel, i = .noteOn c note vel) ∨ (∃ c lo hi, i = .pitchBend c lo hi) := by
  unfold checkedFrequency at h
  split at h
  · exact .inl ⟨_, _, _, rfl⟩
  · exact .inr ⟨_, _, _, rfl⟩
  · cases h

/-- A message keeps the fault bit, or it is a NOTEON or PITCHBEND of frequency zero that sets it and does nothing else (R231). -/
theorem exec_fault_cases (h : exec i s = .next t) :
    t.fault = s.fault ∨ (checkedFrequency s i = some 0#16 ∧ t = s.setFault) := by
  have hrel : ∀ c note, (releaseNote c note s).fault = s.fault := fun c note => by
    rcases releaseNote_cases c note s with ⟨-, he⟩ | ⟨-, he⟩ <;> simp [he]
  cases i with
  | noteOn c note vel =>
    rcases execNoteOn_cases c note vel s with ⟨hinvalid, he⟩ | ⟨-, he⟩ <;> cases he.symm.trans h
    · exact .inr ⟨congrArg some ((freqInvalid_iff _ _ _).mp hinvalid).1, rfl⟩
    · exact .inl rfl
  | pitchBend c lo hi =>
    rcases execPitchBend_cases c lo hi s with ⟨hinvalid, he⟩ | ⟨-, he⟩ <;> cases he.symm.trans h
    · exact .inr ⟨congrArg some ((freqInvalid_iff _ _ _).mp hinvalid).1, rfl⟩
    · exact .inl rfl
  | noteOff c note vel => cases h; exact .inl (hrel c note)
  | noteOnV0 c note => cases h; exact .inl (hrel c note)
  | ccAllSoundOff | ccAllNotesOff | cc | polyPress | progChg | chanPress | reserved => cases h; exact .inl rfl

/-- R198, R231: what NOTEON answers where `check_freq` raises. -/
theorem execNoteOn_of_freqInvalid {note vel : Data}
    (h : freqInvalid s.cfg ⟨c, note⟩ (resolve s.cfg.constants note (s.entry c).pw) = true) :
    execNoteOn c note vel s = .next s.setFault :=
  (execNoteOn_cases c note vel s).elim And.right fun hpass => absurd hpass.1 (by simp [h])

/-- R198, R231: what PITCHBEND answers where `check_freq` raises. -/
theorem execPitchBend_of_freqInvalid {lo hi : Data}
    (h : freqInvalid s.cfg ⟨c, (s.entry c).note⟩ (resolve s.cfg.constants (s.entry c).note (wheelOf lo hi)) = true) :
    execPitchBend c lo hi s = .next s.setFault :=
  (execPitchBend_cases c lo hi s).elim And.right fun hpass => absurd hpass.1 (by simp [h])

end Exec

/-- Settles O19: zero frequency and a mapped key are what `check_freq` raises on, and the stated bend is `wheelOf`. -/
theorem zeroFrequencyMessagesOnlyFault : Obligations.ZeroFrequencyMessagesOnlyFault := by
  intro s c x y
  refine ⟨fun hzero hmapped => ?_, fun pw hpw hzero hmapped => ?_⟩
  · exact execNoteOn_of_freqInvalid ((freqInvalid_iff _ _ _).mpr ⟨hzero, hmapped⟩)
  · obtain rfl : pw = wheelOf x y := BitVec.eq_of_toNat_eq (hpw.trans (wheelOf_toNat x y).symm)
    exact execPitchBend_of_freqInvalid ((freqInvalid_iff _ _ _).mpr ⟨hzero, hmapped⟩)

end Sys2Proof.Machine

namespace Sys2Proof.Machine

/-! ## What a step can do, said once -/

/-- What performing `op`, which stood before `rest` at the head of `ops`, can answer (R192, R194 to R197). -/
inductive Performs (op : Op) (rest : List Op) (s : State) : State → Prop
  | removes (hu : unitOf s.cfg op.key = none) : Performs op rest s ((s.setOps rest).record (.unmapped op))
  | waits {k : Key} {hz : BitVec 16} {u : Nat} (hop : op = .setFrequency k hz) (hu : unitOf s.cfg k = some u)
      (hfull : s.lpReady u = false) : Performs op rest s s
  | loads {k : Key} {hz : BitVec 16} {u : Nat} (hop : op = .setFrequency k hz) (hu : unitOf s.cfg k = some u)
      (hready : s.lpReady u = true) :
      Performs op rest s (((s.setOps rest).enqueue u (periodOf s.cfg.constants hz)).record
        (.loadPeriod u (periodOf s.cfg.constants hz)))
  | drives {k : Key} {v : Bool} {u : Nat} (hop : (op = .start k ∧ v = true) ∨ (op = .stop k ∧ v = false))
      (hu : unitOf s.cfg k = some u) : Performs op rest s (((s.setOps rest).setEnable u v).record (.enable u v))

theorem performOp_performs {op : Op} {rest : List Op} {s t : State} (h : performOp op rest s = .next t) :
    Performs op rest s t := by
  have henable : ∀ k v, (op = .start k ∧ v = true) ∨ (op = .stop k ∧ v = false) →
      Performs op rest s (performEnable op k v rest s) := fun k v hop => by
    rcases performEnable_cases op k v rest s with ⟨hu, he⟩ | ⟨u, hu, he⟩ <;> rw [he]
    · exact .removes (by rcases hop with ⟨rfl, -⟩ | ⟨rfl, -⟩ <;> exact hu)
    · exact .drives hop hu
  cases op with
  | setFrequency k hz =>
    rcases performSetFrequency_cases k hz rest s with ⟨hu, he⟩ | ⟨u, -, -, he⟩ | ⟨u, hu, -, hfull, he⟩ |
      ⟨u, hu, -, hready, he⟩ <;> cases he.symm.trans h
    · exact .removes hu
    · exact .waits rfl hu hfull
    · exact .loads rfl hu hready
  | start k => cases h; exact henable k true (.inl ⟨rfl, rfl⟩)
  | stop k => cases h; exact henable k false (.inr ⟨rfl, rfl⟩)

theorem Performs.frame {op : Op} {rest : List Op} {s t : State} (h : Performs op rest s.popTurn t) : OperationFrame s t := by
  have hpop := OperationFrame.popTurn s
  cases h with
  | removes => exact (hpop.setOps _).record _
  | waits => exact hpop
  | loads => exact ((hpop.setOps _).enqueue _ _).record _
  | drives => exact ((hpop.setOps _).setEnable _ _).record _

/-- Everything a step that answers a next state can do: one constructor per change, `stays` for the turns that change nothing
but that they are scheduled no more. -/
inductive StepMove (s : State) : State → Prop
  | stays : StepMove s s.popTurn
  | performs {op : Op} {rest : List Op} {t : State} (hat : AtOperation s op rest) (h : Performs op rest s.popTurn t) :
      StepMove s t
  | accepts {b : Byte} (hready : ReadyForByte s) (hb : s.rxData = some b) :
      StepMove s (s.popTurn.acceptByte.setDec (decodeByte s.dec b).1)
  | executes {b : Byte} {m : Msg} {t : State} (hready : ReadyForByte s) (hb : s.rxData = some b)
      (hm : (decodeByte s.dec b).2 = some m) (h : exec (Instr.ofMsg m) s.messageAccepted = .next t) : StepMove s t
  | passes {ps : Vector Pair 4} (hturn : nextTurn s = .poll) (hfamily : s.cfg.family = .scanner) (hsup : s.sup = some ps) :
      StepMove s (s.popTurn.setPairs (passPairs s.cfg s.sense ps))
  | resets (hturn : nextTurn s = .rst) : StepMove s (resetTurn s.popTurn)
  | rises (hturn : nextTurn s = .initDone true) (hlow : s.initDone = false) :
      StepMove s { s.popTurn with initDone := true, queues := List.replicate s.cfg.nUnits [] }
  | offers {b : Byte} (hturn : nextTurn s = .offer b) : StepMove s { s.popTurn with offered := s.offered ++ [b] }
  | receives {v : Bool} (hturn : nextTurn s = .uartBit v) : StepMove s { s.popTurn with uart := uartStep s.uart v }
  | drains {u : Nat} (hturn : nextTurn s = .drain u) : StepMove s (s.popTurn.dequeue u)
  | senses {i : Fin 4} {v : Bool} (hturn : nextTurn s = .sense i v) :
      StepMove s { s.popTurn with sense := s.sense.set i v }

theorem engineTurn_moves {s t : State} (hturn : nextTurn s = .engine) (h : engineTurn s.popTurn = .next t) :
    StepMove s t := by
  rcases engineTurn_cases s.popTurn with ⟨-, he⟩ | ⟨hfault, op, rest, hops, he⟩ | ⟨-, -, -, he⟩ |
    ⟨hfault, hops, hinit, b, hb, he⟩
  · cases he.symm.trans h
    exact .stays
  · exact .performs ⟨hturn, hfault, hops⟩ (performOp_performs (he.symm.trans h))
  · cases he.symm.trans h
    exact .stays
  · have hready : ReadyForByte s := ⟨hturn, hinit, hfault, hops⟩
    rcases byteStep_cases s.popTurn b with ⟨-, hbyte⟩ | ⟨m, hm, hbyte⟩ <;> rw [he, hbyte] at h
    · cases h
      exact .accepts hready hb
    · exact .executes hready hb hm h

theorem step_moves {s t : State} (h : step s = .next t) : StepMove s t := by
  rw [step_eq] at h
  cases hturn : nextTurn s with
  | engine => rw [hturn] at h; exact engineTurn_moves hturn h
  | poll =>
    rw [hturn] at h
    cases h
    rcases supervisorPass_cases s.popTurn with he | ⟨hfamily, -, ps, hsup, he⟩ <;> rw [he]
    · exact .stays
    · exact .passes hturn hfamily hsup
  | rst => rw [hturn] at h; cases h; exact .resets hturn
  | initDone v =>
    rw [hturn] at h
    rcases initDoneTurn_cases v s.popTurn with ⟨-, he⟩ | ⟨hlow, rfl, he⟩ | ⟨-, -, he⟩ <;> cases he.symm.trans h
    · exact .stays
    · exact .rises hturn hlow
  | offer b =>
    rw [hturn] at h
    cases h
    unfold offerTurn
    split
    · exact .stays
    · exact .offers hturn
  | uartBit v =>
    rw [hturn] at h
    cases h
    unfold uartTurn
    split
    · exact .receives hturn
    · exact .stays
  | drain u => rw [hturn] at h; cases h; exact .drains hturn
  | sense i v =>
    rw [hturn] at h
    cases h
    unfold senseTurn
    split
    · exact .senses hturn
    · exact .stays

/-! The state a message is executed in differs from the one before it in the byte interface, the decoder and the turns to
come. -/

section MessageAccepted

variable (s : State)

@[simp] theorem State.messageAccepted_cfg : s.messageAccepted.cfg = s.cfg := by simp [State.messageAccepted]
@[simp] theorem State.messageAccepted_dec : s.messageAccepted.dec = { s.dec with state := .idle } := rfl
@[simp] theorem State.messageAccepted_en : s.messageAccepted.en = s.en := by simp [State.messageAccepted]
@[simp] theorem State.messageAccepted_ops : s.messageAccepted.ops = s.ops := by simp [State.messageAccepted]
@[simp] theorem State.messageAccepted_fault : s.messageAccepted.fault = s.fault := by simp [State.messageAccepted]
@[simp] theorem State.messageAccepted_sup : s.messageAccepted.sup = s.sup := by simp [State.messageAccepted]
@[simp] theorem State.messageAccepted_initDone : s.messageAccepted.initDone = s.initDone := by simp [State.messageAccepted]
@[simp] theorem State.messageAccepted_sense : s.messageAccepted.sense = s.sense := by simp [State.messageAccepted]
@[simp] theorem State.messageAccepted_queues : s.messageAccepted.queues = s.queues := by simp [State.messageAccepted]
@[simp] theorem State.messageAccepted_trace : s.messageAccepted.trace = s.trace := by simp [State.messageAccepted]
@[simp] theorem State.messageAccepted_entry (c : Channel) : s.messageAccepted.entry c = s.entry c := by
  simp [State.messageAccepted]
@[simp] theorem State.messageAccepted_enabled (u : Nat) : s.messageAccepted.enabled u = s.enabled u := by
  simp [State.messageAccepted]

end MessageAccepted

end Sys2Proof.Machine

namespace Sys2Proof.Machine

/-! ## The state invariant: what each operation on the state needs to keep it -/

/-- The decoder awaits a second data byte only where the command has one (R113, R114). -/
theorem decodeByte_waitD2_cmd {d : Decoder} {b : Byte} (h : (decodeByte d b).1.state = .waitD2) :
    takesOneDataByte (decodeByte d b).1.cmd = false := by
  unfold decodeByte at h ⊢
  repeat' split at h
  all_goals simp_all [openMessage]

theorem velocityOf_toNat (vel : Data) : (velocityOf vel).toNat = vel.toNat :=
  BitVec.toNat_setWidth_of_le (by decide)

/-- Settles O52: every clause is read off the reset state, whose lists are empty or constant. -/
theorem invHoldsAtReset : Obligations.InvHoldsAtReset := by
  intro cfg hwf
  constructor
  case cfg_wf => exact hwf
  case en_length => exact List.length_replicate
  case queues_length => exact List.length_replicate
  case queue_bound =>
    intro q hq
    rw [List.eq_of_mem_replicate hq]
    exact Nat.zero_le _
  case ops_length => exact Nat.zero_le 2
  case ops_nonzero => intro k hz hmem; cases hmem
  case sup_family => cases hf : cfg.family <;> simp [State.resetOf, hf]
  case vel_bound => intro c; rw [State.resetOf_entry]; decide
  case waitD2_cmd => exact nofun
  case fault_ops => exact nofun
  case before_init => exact fun _ => ⟨rfl, rfl, rfl, State.resetOf_enabled cfg⟩

namespace StateInv

variable {s t : State}

theorem queue_length_le (h : StateInv s) (u : Nat) : (s.queue u).length ≤ s.cfg.qdepth := by
  by_cases hu : u < s.queues.length
  · rw [State.queue, List.getD_eq_getElem _ _ hu]
    exact h.queue_bound _ (List.getElem_mem hu)
  · rw [State.queue, List.getD_eq_default _ _ (not_lt.mp hu)]
    exact Nat.zero_le _

/-- Only an engine past `init_done` that is not halted has pending operations (R233, R252). -/
theorem running_of_ops_ne_nil (h : StateInv s) (hops : s.ops ≠ []) : s.initDone = true ∧ s.fault = false := by
  refine ⟨?_, ?_⟩
  · by_contra hlow
    obtain ⟨-, hnil, -⟩ := h.before_init (Bool.not_eq_true _ ▸ hlow)
    exact hops hnil
  · by_contra hfault
    exact hops (h.fault_ops (Bool.not_eq_false _ ▸ hfault))

theorem popTurn (h : StateInv s) : StateInv s.popTurn :=
  { h with }

theorem record (h : StateInv s) (o : Out) : StateInv (s.record o) :=
  { h with }

theorem acceptByte (h : StateInv s) : StateInv s.acceptByte := by
  unfold State.acceptByte
  split <;> exact { h with }

theorem setEntry (h : StateInv s) (c : Channel) {e : Entry} (he : e.vel.toNat < 128) : StateInv (s.setEntry c e) :=
  { h with
    vel_bound := fun c' => by
      rw [State.entry_setEntry]
      split
      · exact he
      · exact h.vel_bound c' }

theorem setNote (h : StateInv s) (c : Channel) (v : Data) : StateInv (s.setNote c v) :=
  h.setEntry c (h.vel_bound c)

theorem setPw (h : StateInv s) (c : Channel) (v : Wheel) : StateInv (s.setPw c v) :=
  h.setEntry c (h.vel_bound c)

theorem setVel (h : StateInv s) (c : Channel) {v : BitVec 8} (hv : v.toNat < 128) : StateInv (s.setVel c v) :=
  h.setEntry c hv

theorem setFault (h : StateInv s) (hops : s.ops = []) (hinit : s.initDone = true) : StateInv s.setFault :=
  { h with
    fault_ops := fun _ => hops
    before_init := fun hlow => absurd hinit (Bool.eq_false_iff.mp hlow) }

theorem setDec (h : StateInv s) (hinit : s.initDone = true) {d : Decoder}
    (hcmd : d.state = .waitD2 → takesOneDataByte d.cmd = false) : StateInv (s.setDec d) :=
  { h with
    waitD2_cmd := hcmd
    before_init := fun hlow => absurd hinit (Bool.eq_false_iff.mp hlow) }

theorem issue (h : StateInv s) (hrun : s.initDone = true ∧ s.fault = false) (hlen : s.ops.length < 2) {op : Op}
    (hop : ∀ k hz, op = .setFrequency k hz → (unitOf s.cfg k).isSome → hz ≠ 0#16) : StateInv (s.issue op) :=
  { h with
    ops_length := by simpa using Nat.succ_le_of_lt hlen
    ops_nonzero := fun k hz hmem => by
      rcases List.mem_append.mp hmem with hmem | hmem
      · exact h.ops_nonzero k hz hmem
      · exact hop k hz (List.mem_singleton.mp hmem).symm
    fault_ops := fun hfault => absurd hrun.2 (by simpa using hfault)
    before_init := fun hlow => absurd hrun.1 (Bool.eq_false_iff.mp hlow) }

theorem setOps_tail (h : StateInv s) {op : Op} {rest : List Op} (hops : s.ops = op :: rest) : StateInv (s.setOps rest) :=
  have hne : s.ops ≠ [] := by simp [hops]
  { h with
    ops_length := by
      have := h.ops_length
      simp only [hops, List.length_cons] at this
      exact Nat.le_of_succ_le this
    ops_nonzero := fun k hz hmem => h.ops_nonzero k hz (hops ▸ List.mem_cons_of_mem op hmem)
    fault_ops := fun hfault => absurd (h.running_of_ops_ne_nil hne).2 (by simpa using hfault)
    before_init := fun hlow => absurd (h.running_of_ops_ne_nil hne).1 (Bool.eq_false_iff.mp hlow) }

theorem enqueue (h : StateInv s) {u : Nat} (hready : s.lpReady u = true) (p : BitVec 32) : StateInv (s.enqueue u p) :=
  { h with
    queues_length := by simpa using h.queues_length
    queue_bound := queues_set_bound h.queue_bound (by simpa [State.lpReady] using hready) }

theorem dequeue (h : StateInv s) (u : Nat) : StateInv (s.dequeue u) :=
  { h with
    queues_length := by simpa using h.queues_length
    queue_bound := queues_set_bound h.queue_bound (by
      rw [List.length_tail]
      exact (Nat.sub_le _ 1).trans (h.queue_length_le u)) }

theorem setEnable (h : StateInv s) (hinit : s.initDone = true) (u : Nat) (v : Bool) : StateInv (s.setEnable u v) :=
  { h with
    en_length := by simpa using h.en_length
    before_init := fun hlow => absurd hinit (Bool.eq_false_iff.mp hlow) }

theorem setPairs (h : StateInv s) (hfamily : s.cfg.family = .scanner) (ps : Vector Pair 4) : StateInv (s.setPairs ps) :=
  { h with sup_family := iff_of_true rfl hfamily }

/-- Performing the head operation keeps the invariant (R192, R194 to R197). -/
theorem performs (h : StateInv s) {op : Op} {rest : List Op} (hops : s.ops = op :: rest) (hp : Performs op rest s t) :
    StateInv t := by
  have htail := h.setOps_tail hops
  cases hp with
  | removes => exact htail.record _
  | waits => exact h
  | loads hop hu hready => exact (htail.enqueue hready _).record _
  | drives hop hu => exact (htail.setEnable (h.running_of_ops_ne_nil (by simp [hops])).1 _ _).record _

/-- A message executed with `ops` empty keeps the invariant (R141 to R151). -/
theorem exec {i : Instr} (h : StateInv s) (hrun : s.initDone = true ∧ s.fault = false) (hops : s.ops = [])
    (he : exec i s = .next t) : StateInv t := by
  have hstop : ∀ k k' hz, Op.stop k = .setFrequency k' hz → (unitOf s.cfg k').isSome → hz ≠ 0#16 := nofun
  have hchecked : ∀ {k hz}, freqInvalid s.cfg k hz = false →
      ∀ k' hz', Op.setFrequency k hz = .setFrequency k' hz' → (unitOf s.cfg k').isSome → hz' ≠ 0#16 := by
    intro k hz hvalid k' hz' heq hmapped hzero
    cases heq
    exact Bool.eq_false_iff.mp hvalid ((freqInvalid_iff _ _ _).mpr ⟨hzero, hmapped⟩)
  rcases exec_cases i s with he' | he' | ⟨c, note, -, -, he'⟩ | ⟨c, -, he'⟩ | ⟨c, note, vel, hz, -, hvalid, he'⟩ |
    ⟨c, lo, hi, hz, -, hvalid, he'⟩ <;> cases he'.symm.trans he
  · exact h
  · exact h.setFault hops hrun.1
  · exact (h.setVel c (by decide)).issue hrun (by simp [hops]) (hstop _)
  · exact h.issue hrun (by simp [hops]) (hstop _)
  · have hset := (h.setNote c note).issue hrun (by simp [hops]) (hchecked hvalid)
    have hstart := hset.issue (op := .start ⟨c, note⟩) hrun (by simp [hops]) (fun _ _ hop => nomatch hop)
    exact hstart.setVel c (by simpa [velocityOf_toNat] using vel.isLt)
  · exact (h.setPw c _).issue hrun (by simp [hops]) (hchecked hvalid)

theorem resetTurn (h : StateInv s) : StateInv (resetTurn s) :=
  { invHoldsAtReset s.cfg h.cfg_wf with queues_length := h.queues_length, queue_bound := h.queue_bound }

end StateInv

/-- Settles O53: each thing a step can do is an operation that keeps the invariant where the step does it. -/
theorem stepKeepsInv : Obligations.StepKeepsInv := by
  intro s t h hstep
  have hpop := h.popTurn
  cases step_moves hstep with
  | stays => exact hpop
  | performs hat hp =>
    obtain ⟨-, -, hops⟩ := hat
    exact hpop.performs hops hp
  | accepts hready hb =>
    obtain ⟨-, hinit, -⟩ := hready
    exact hpop.acceptByte.setDec (by simpa using hinit) decodeByte_waitD2_cmd
  | executes hready hb hm he =>
    obtain ⟨-, hinit, hfault, hops⟩ := hready
    have haccepted : StateInv s.messageAccepted := hpop.acceptByte.setDec (by simpa using hinit) nofun
    exact haccepted.exec (by simp [hinit, hfault]) (by simp [hops]) he
  | passes hturn hfamily hsup => exact hpop.setPairs hfamily _
  | resets => exact hpop.resetTurn
  | rises hturn hlow =>
    exact { hpop with
      queues_length := List.length_replicate
      queue_bound := fun q hq => by rw [List.eq_of_mem_replicate hq]; exact Nat.zero_le _
      before_init := nofun }
  | offers => exact { hpop with }
  | receives => exact { hpop with }
  | drains => exact hpop.dequeue _
  | senses => exact { hpop with }

/-- Settles O54: the only turn that stops is the performing of a zero frequency, which the invariant keeps out of `ops`, or the
fall of `init_done`. -/
theorem stepNeverStopsFromInv : Obligations.StepNeverStopsFromInv := by
  intro s h hfall
  rw [step_eq]
  cases hturn : nextTurn s with
  | engine =>
    rcases engineTurn_cases s.popTurn with ⟨-, he⟩ | ⟨-, op, rest, hops, he⟩ | ⟨-, -, -, he⟩ | ⟨-, -, -, b, -, he⟩
    · exact ⟨_, he⟩
    · rcases performOp_cases op rest s.popTurn with ⟨hp, -⟩ | ⟨-, hp⟩ | ⟨_, _, _, -, -, -, -, hp⟩ |
        ⟨_, _, _, -, -, hp⟩ | ⟨k, hz, u, rfl, hu, hzero, -⟩
      · exact ⟨_, he.trans hp⟩
      · exact ⟨_, he.trans hp⟩
      · exact ⟨_, he.trans hp⟩
      · exact ⟨_, he.trans hp⟩
      · exact absurd hzero (h.popTurn.ops_nonzero k hz (hops ▸ List.mem_cons_self) (hu ▸ rfl))
    · exact ⟨_, he⟩
    · rcases byteStep_cases s.popTurn b with ⟨-, hbyte⟩ | ⟨m, -, hbyte⟩
      · exact ⟨_, he.trans hbyte⟩
      · obtain ⟨t, ht⟩ := exec_next (Instr.ofMsg m) s.messageAccepted
        exact ⟨t, he.trans (hbyte.trans ht)⟩
  | initDone v =>
    rcases initDoneTurn_cases v s.popTurn with ⟨-, he⟩ | ⟨-, -, he⟩ | ⟨-, rfl, -⟩
    · exact ⟨_, he⟩
    · exact ⟨_, he⟩
    · exact absurd hturn hfall
  | poll | rst | offer | uartBit | drain | sense => exact ⟨_, rfl⟩

/-- Settles O49: before `init_done` the engine has nothing to do and no byte is taken, so no move touches what the invariant says. -/
theorem nothingPrecedesInitDone : Obligations.NothingPrecedesInitDone := by
  intro s t h hlow hstep
  obtain ⟨hdec, hops, hfault, hen⟩ := h.before_init hlow
  have hnotReady : ¬ ReadyForByte s := fun ⟨_, hhigh, _⟩ => absurd hhigh (by simp [hlow])
  cases step_moves hstep with
  | performs hat =>
    obtain ⟨-, -, hcons⟩ := hat
    exact absurd (hops.symm.trans hcons) (List.cons_ne_nil _ _).symm
  | accepts hready => exact absurd hready hnotReady
  | executes hready => exact absurd hready hnotReady
  | stays => exact ⟨rfl, hops, hdec, hen, fun _ => rfl⟩
  | resets hturn => exact ⟨rfl, rfl, rfl, State.resetOf_enabled s.cfg, by simp [hturn]⟩
  | passes hturn | rises hturn | offers hturn | receives hturn | drains hturn | senses hturn =>
    exact ⟨rfl, hops, hdec, hen, by simp [hturn]⟩

end Sys2Proof.Machine

namespace Sys2Proof.Machine

/-! ## The resolver in its exponent: the boundaries of each frequency, its range, and the period -/

theorem exactFrequency_mono {k : Constants} {a a' : Int} (h : a ≤ a') : exactFrequency k a ≤ exactFrequency k a' := by
  have hexponent : (a : ℝ) / (stepsPerOctave k : ℝ) ≤ (a' : ℝ) / (stepsPerOctave k : ℝ) :=
    div_le_div_of_nonneg_right (Int.cast_le.mpr h) (Nat.cast_nonneg _)
  exact mul_le_mul_of_nonneg_left (Real.rpow_le_rpow_of_exponent_le one_le_two hexponent) (Nat.cast_nonneg _)

section NotAbove

variable {k : Constants} {a a' b : Int} {m : Nat}

/-- A frequency that is not above an exact frequency is not above that of a greater exponent. -/
theorem notAbove_mono (hk : 0 < stepsPerOctave k) (h : a ≤ a') (hm : notAbove k a m = true) : notAbove k a' m = true := by
  rw [notAbove_iff_le_exactFrequency hk] at hm ⊢
  exact hm.trans (exactFrequency_mono h)

/-- The exponents a frequency is not above are those beyond one boundary, so two evaluations of R173 decide all of them. -/
theorem notAbove_iff_of_boundary (hk : 0 < stepsPerOctave k) (hb : notAbove k b m = false)
    (hsucc : notAbove k (b + 1) m = true) : notAbove k a m = true ↔ b < a := by
  refine ⟨fun hm => ?_, fun hlt => notAbove_mono hk hlt hsucc⟩
  by_contra hle
  exact absurd (notAbove_mono hk (not_lt.mp hle) hm) (by simp [hb])

end NotAbove

theorem bendExponent_documentConstants (n : Data) (pw : Wheel) :
    bendExponent documentConstants n pw = 4096 * ((n.toNat : Int) - 69) + (pw.toNat : Int) - 8192 := by
  simp only [bendExponent, documentConstants]
  push_cast
  ring

/-- The exponents of the document's constants: note 0 at the lowest bend to note 127 at the highest. -/
theorem bendExponent_documentConstants_range (n : Data) (pw : Wheel) :
    -290816 ≤ bendExponent documentConstants n pw ∧ bendExponent documentConstants n pw ≤ 245759 := by
  have hn := n.isLt
  have hpw := pw.isLt
  rw [bendExponent_documentConstants]
  omega

/-- R174: with the document's constants no frequency is below 7 Hz. -/
theorem seven_le_resolve (n : Data) (pw : Wheel) : 7 ≤ (resolve documentConstants n pw).toNat := by
  have hlowest : notAbove documentConstants (-290816) 7 = true := by decide
  rw [le_resolve_documentConstants_iff]
  exact notAbove_mono (by decide) (bendExponent_documentConstants_range n pw).1 hlowest

/-- R174: with the document's constants no frequency is above 14079 Hz. -/
theorem resolve_le_14079 (n : Data) (pw : Wheel) : (resolve documentConstants n pw).toNat ≤ 14079 := by
  have hhighest : notAbove documentConstants 245759 14080 = false := by decide
  by_contra hlt
  have hm := (le_resolve_documentConstants_iff n pw 14080).mp (not_le.mp hlt)
  have htop := notAbove_mono (by decide) (bendExponent_documentConstants_range n pw).2 hm
  exact absurd htop (by simp [hhighest])

theorem eight_le_resolve_iff (n : Data) (pw : Wheel) :
    8 ≤ (resolve documentConstants n pw).toNat ↔ -284166 < bendExponent documentConstants n pw := by
  have hb : notAbove documentConstants (-284166) 8 = false := by decide
  have hsucc : notAbove documentConstants (-284166 + 1) 8 = true := by decide
  rw [le_resolve_documentConstants_iff]
  exact notAbove_iff_of_boundary (by decide) hb hsucc

theorem resolve_documentConstants_ne_zero (n : Data) (pw : Wheel) : resolve documentConstants n pw ≠ 0#16 := by
  intro hzero
  have h := seven_le_resolve n pw
  simp [hzero] at h

/-- Settles O24: the two cases are those of R173's comparison, at the document's 49152 steps per octave. -/
theorem resolveIsGreatestNotAboveExact : Obligations.ResolveIsGreatestNotAboveExact := by
  rintro n pw a ha m
  rw [← bendExponent_documentConstants] at ha
  have hsteps : stepsPerOctave documentConstants = 49152 := rfl
  have hhz : documentConstants.refHz = 440 := rfl
  rw [le_resolve_documentConstants_iff, ← ha]
  exact ⟨fun hnonneg => by rw [notAbove_iff_of_nonneg hnonneg, hsteps, hhz],
    fun hneg => by rw [notAbove_iff_of_neg hneg, hsteps, hhz]⟩

/-- Settles O26: the two ends are the bounds, reached at the ends of the exponent, and 7 is what is not yet 8. -/
theorem resolveRangeIsSevenToFourteenThousand : Obligations.ResolveRangeIsSevenToFourteenThousand := by
  have hseven : ∀ (n : Data) (pw : Wheel), (resolve documentConstants n pw).toNat = 7 ↔
      4096 * ((n.toNat : Int) - 69) + (pw.toNat : Int) - 8192 ≤ -284166 := fun n pw => by
    have hlow := seven_le_resolve n pw
    have height := eight_le_resolve_iff n pw
    rw [bendExponent_documentConstants] at height
    omega
  have hhighest : notAbove documentConstants (bendExponent documentConstants 127#7 16383#14) 14079 = true := by decide
  refine ⟨fun n pw => ⟨seven_le_resolve n pw, resolve_le_14079 n pw, hseven n pw⟩, (hseven 0#7 0#14).mpr (by decide), ?_⟩
  exact le_antisymm (resolve_le_14079 _ _) ((le_resolve_documentConstants_iff _ _ _).mpr hhighest)

/-- Settles O27: what is not above one exact frequency is not above a greater one. -/
theorem resolveIsMonotone : Obligations.ResolveIsMonotone := by
  intro n n' pw pw' hle
  rw [← bendExponent_documentConstants, ← bendExponent_documentConstants] at hle
  rw [le_resolve_documentConstants_iff]
  exact notAbove_mono (by decide) hle ((le_resolve_documentConstants_iff n pw _).mp le_rfl)

/-- Settles O28: the search of R173 evaluated on each input. -/
theorem resolveWorkedValues : Obligations.ResolveWorkedValues := by
  unfold Obligations.ResolveWorkedValues
  decide

theorem periodOf_documentConstants (hz : BitVec 16) :
    (periodOf documentConstants hz).toNat = 500000 / hz.toNat := by
  have hdiv : documentConstants.tickHz / hz.toNat / 2 = 500000 / hz.toNat := by
    rw [Nat.div_right_comm]
    rfl
  rw [periodOf_toNat, hdiv]
  rw [hdiv]
  exact (Nat.div_le_self _ _).trans_lt (by decide)

/-- Settles O29: the period falls as the frequency rises, so its bounds are those at 14079 and at 7. -/
theorem periodIsHalfMillionOverFrequency : Obligations.PeriodIsHalfMillionOverFrequency := by
  refine ⟨fun hz _ => periodOf_documentConstants hz, fun n pw => ?_⟩
  have hlow := seven_le_resolve n pw
  have hhigh := resolve_le_14079 n pw
  rw [periodOf_documentConstants]
  constructor
  · calc 35 = 500000 / 14079 := by decide
      _ ≤ 500000 / (resolve documentConstants n pw).toNat := Nat.div_le_div_left hhigh (by omega)
  · calc 500000 / (resolve documentConstants n pw).toNat ≤ 500000 / 7 := Nat.div_le_div_left hlow (by decide)
      _ = 71428 := by decide

theorem freqInvalid_resolve_documentConstants (cfg : Config) (k : Key) (n : Data) (pw : Wheel) :
    freqInvalid cfg k (resolve documentConstants n pw) = false :=
  (freqInvalid_eq_false_iff _ _ _).mpr (.inl (resolve_documentConstants_ne_zero n pw))

/-- Settles O23: `check_freq` passes, so both messages complete with the writes of R143 and R150. -/
theorem notesAndBendsCompleteWithDocumentConstants : Obligations.NotesAndBendsCompleteWithDocumentConstants := by
  intro s c x y hk
  have hvalid : ∀ k n pw, freqInvalid s.cfg k (resolve s.cfg.constants n pw) = false := by
    rw [hk]
    exact freqInvalid_resolve_documentConstants s.cfg
  exact ⟨⟨_, execNoteOn_of_freqValid (hvalid _ _ _), by simp⟩, ⟨_, execPitchBend_of_freqValid (hvalid _ _ _), by simp⟩⟩

theorem checkedFrequency_ne_zero {s : State} (hk : s.cfg.constants = documentConstants) (i : Instr) :
    checkedFrequency s i ≠ some 0#16 := by
  unfold checkedFrequency
  split
  · rw [hk]; exact fun h => resolve_documentConstants_ne_zero _ _ (Option.some.inj h)
  · rw [hk]; exact fun h => resolve_documentConstants_ne_zero _ _ (Option.some.inj h)
  · exact nofun

/-- Settles O47: only a message raises the fault, and with these constants no frequency it checks is zero. -/
theorem noFaultWithDocumentConstants : Obligations.NoFaultWithDocumentConstants := by
  intro s t hk hstep hsafe
  cases step_moves hstep with
  | performs hat hp => exact hp.frame.fault.trans hsafe
  | accepts => simpa [Safe] using hsafe
  | executes hready hb hm he =>
    rcases exec_fault_cases he with hkeeps | ⟨hzero, -⟩
    · exact hkeeps.trans (s.messageAccepted_fault.trans hsafe)
    · exact absurd hzero (checkedFrequency_ne_zero (by simpa using hk) _)
  | resets => rfl
  | stays | passes | rises | offers | receives | drains | senses => exact hsafe

end Sys2Proof.Machine

namespace Sys2Proof.Machine

/-! ## The bytes the decoder holds: what they and the next byte decode to -/

/-- A byte that completes a message is a data byte, and it is the only one the command takes, or the second (R113, R115). -/
theorem decodeByte_emits {d : Decoder} {b : Byte} {m : Msg} (h : (decodeByte d b).2 = some m) :
    isStatus b = false ∧
      ((d.state = .waitD1 ∧ takesOneDataByte d.cmd = true ∧ m = ⟨d.cmd, d.chan, payloadOf b, 0#7⟩) ∨
        (d.state = .waitD2 ∧ m = ⟨d.cmd, d.chan, d.d1, payloadOf b⟩)) := by
  unfold decodeByte at h
  repeat' split at h
  all_goals simp_all

/-- Where the bytes held and one more decode to an instruction, that byte makes the decoder emit its message (R113, R115). -/
theorem decodeByte_of_decode_heldBytes {d : Decoder} {b : Byte} {i : Instr}
    (h : decode (heldBytes d ++ [b]) = .ok (i, [])) :
    ∃ m, decodeByte d b = ({ d with state := .idle }, some m) ∧ Instr.ofMsg m = i := by
  cases hd : d.state with
  | idle =>
    simp only [heldBytes, hd, List.nil_append, decode] at h
    split at h <;> cases h
  | waitD1 =>
    simp only [heldBytes, hd, List.cons_append, List.nil_append, decode, isStatus_statusByte, if_true,
      commandOf_statusByte, channelOf_statusByte] at h
    split at h
    · cases h
    next hb =>
    split at h
    · next hone =>
      cases h
      exact ⟨_, decodeByte_waitD1_oneDataByte hd (Bool.not_eq_true _ ▸ hb) hone, rfl⟩
    · cases h
  | waitD2 =>
    simp only [heldBytes, hd, List.cons_append, List.nil_append, decode, isStatus_statusByte, if_true,
      commandOf_statusByte, channelOf_statusByte, isStatus_dataByte, payloadOf_dataByte] at h
    simp only [Bool.false_eq_true, if_false] at h
    split at h
    · cases h
    split at h
    · cases h
    next hb =>
    cases h
    exact ⟨_, decodeByte_waitD2_data hd (Bool.not_eq_true _ ▸ hb), rfl⟩

/-- An emitted message of a command that takes two data bytes is what the bytes held and the last one decode to. -/
theorem decode_heldBytes_of_emits {d : Decoder} {b : Byte} {m : Msg} (h : (decodeByte d b).2 = some m)
    (htwo : takesOneDataByte m.cmd = false) : decode (heldBytes d ++ [b]) = .ok (Instr.ofMsg m, []) := by
  obtain ⟨hb, ⟨-, hone, rfl⟩ | ⟨hd, rfl⟩⟩ := decodeByte_emits h
  · exact absurd hone (by simp [htwo])
  · have hbytes : heldBytes d ++ [b] = (⟨d.cmd, d.chan, d.d1, payloadOf b⟩ : Msg).bytes ++ [] := by
      simp [heldBytes, hd, Msg.bytes, htwo, dataByte_of_not_isStatus hb]
    rw [hbytes, decode_bytes]

/-- Settles O11: the byte makes the decoder emit the message of `i`, which is executed in the same step. -/
theorem stepRunsDecodedInstruction : Obligations.StepRunsDecodedInstruction := by
  intro s b i hready hb hdecode
  obtain ⟨m, hm, rfl⟩ := decodeByte_of_decode_heldBytes hdecode
  rw [step_of_readyForByte hready hb]
  exact byteStep_of_message (s := s.popTurn) hm

/-- A message that resolves a frequency takes two data bytes. -/
theorem takesOneDataByte_of_checkedFrequency {s : State} {m : Msg} {hz : BitVec 16}
    (h : checkedFrequency s (Instr.ofMsg m) = some hz) : takesOneDataByte m.cmd = false := by
  obtain ⟨cmd, c, d1, d2⟩ := m
  by_contra hone
  rcases (takesOneDataByte_iff cmd).mp (by simpa using hone) with rfl | rfl <;> cases h

/-- Settles O46: every other move keeps the fault bit, and a message that raises it does nothing else. -/
theorem faultIsPrecise : Obligations.FaultIsPrecise := by
  intro s t hstep hlow hhigh
  have hkept : t.fault ≠ s.fault := by simp [hlow, hhigh]
  cases step_moves hstep with
  | performs hat hp => exact absurd hp.frame.fault hkept
  | accepts => exact absurd (by simp) hkept
  | executes hready hb hm he =>
    rcases exec_fault_cases he with hkeeps | ⟨hchecked, rfl⟩
    · exact absurd (hkeeps.trans s.messageAccepted_fault) hkept
    · exact ⟨hready, rfl, _, _, hb, decode_heldBytes_of_emits hm (takesOneDataByte_of_checkedFrequency hchecked),
        checkedFrequency_isSome hchecked⟩
  | resets => cases hhigh
  | stays | passes | rises | offers | receives | drains | senses => exact absurd rfl hkept

end Sys2Proof.Machine

namespace Sys2Proof.Machine

/-! ## The unit maps, and the levels the pending operations leave -/

/-- Two channels that a map without repeats sends to one unit are the same, and the unit exists. -/
theorem channel_eq_of_mapped {m u : Nat} {v : Vector (Option (Fin m)) 16} (hv : (mappedUnits v).Nodup) {c c' : Channel}
    (h : (v[c.toNat]'c.isLt).map Fin.val = some u) (h' : (v[c'.toNat]'c'.isLt).map Fin.val = some u) :
    c = c' ∧ u < m := by
  obtain ⟨w, hw, rfl⟩ := Option.map_eq_some_iff.mp h
  obtain ⟨w', hw', heq⟩ := Option.map_eq_some_iff.mp h'
  obtain rfl : w' = w := Fin.ext heq
  exact ⟨BitVec.eq_of_toNat_eq (mappedUnits_injective hv c.isLt c'.isLt hw hw'), w'.isLt⟩

/-- Settles O34: in each family the map in use repeats no unit and names only units that exist. -/
theorem unitMapIsInjective : Obligations.UnitMapIsInjective := by
  intro cfg k k' u hwf hk hk'
  obtain ⟨htone, -, hclick, hclickUnits, hscanner, -⟩ := hwf
  cases hf : cfg.family with
  | tone =>
    simp only [unitOf, hf] at hk hk'
    obtain ⟨hc, hu⟩ := channel_eq_of_mapped htone hk hk'
    exact ⟨hc, nofun, by rw [Config.nUnits, hf]; exact hu⟩
  | scanner =>
    simp only [unitOf, hf] at hk hk'
    obtain ⟨hc, hu⟩ := channel_eq_of_mapped hscanner hk hk'
    exact ⟨hc, nofun, by rw [Config.nUnits, hf]; exact hu⟩
  | click =>
    simp only [unitOf, hf, Option.ite_none_right_eq_some] at hk hk'
    obtain ⟨hc, hn⟩ := hk
    obtain ⟨hc', hn'⟩ := hk'
    have hmem : u ∈ mappedUnits cfg.clickNoteMap :=
      List.mem_filterMap.mpr ⟨some u, by rw [← hn]; exact Vector.mem_toList_iff.mpr (Vector.getElem_mem k.n.isLt), rfl⟩
    refine ⟨hc.trans hc'.symm, fun _ => ⟨?_, hc⟩, by rw [Config.nUnits, hf]; exact hclickUnits u hmem⟩
    exact BitVec.eq_of_toNat_eq (mappedUnits_injective hclick k.n.isLt k'.n.isLt hn hn')

section LevelAfter

variable {cfg : Config} {u : Nat} {k : Key} {level level' : Bool} {op : Op}

/-- An operation of another unit, or of none, leaves the level. -/
theorem levelAfter_of_ne (h : unitOf cfg op.key ≠ some u) : levelAfter cfg u level op = level := by
  cases op with
  | setFrequency k hz => rfl
  | start k => exact if_neg h
  | stop k => exact if_neg h

theorem levelAfter_enable_self {v : Bool} (hop : (op = .start k ∧ v = true) ∨ (op = .stop k ∧ v = false))
    (hu : unitOf cfg k = some u) : levelAfter cfg u level op = v := by
  rcases hop with ⟨rfl, rfl⟩ | ⟨rfl, rfl⟩ <;> exact if_pos hu

theorem levelAfter_stop_of_low : levelAfter cfg u false (.stop k) = false := by
  simp [levelAfter]

theorem levelAfter_mono (h : level = true → level' = true) (hl : levelAfter cfg u level op = true) :
    levelAfter cfg u level' op = true := by
  cases op with
  | setFrequency k hz => exact h hl
  | start k | stop k =>
    simp only [levelAfter] at hl ⊢
    split at hl <;> simp_all

theorem foldl_levelAfter_mono (ops : List Op) (h : level = true → level' = true)
    (hl : ops.foldl (levelAfter cfg u) level = true) : ops.foldl (levelAfter cfg u) level' = true := by
  induction ops generalizing level level' with
  | nil => exact h hl
  | cons op ops ih => exact ih (levelAfter_mono h) hl

/-- An operation of another unit, or of none, loads nothing there. -/
theorem loadedBy_of_ne (h : unitOf cfg op.key ≠ some u) : loadedBy cfg u op = [] := by
  cases op with
  | setFrequency k hz => exact if_neg h
  | start k | stop k => rfl

end LevelAfter

/-- Performing an operation leaves no enable above the level the operation asks for (R194 to R197). -/
theorem Performs.enabled_le {op : Op} {rest : List Op} {s t : State} (h : Performs op rest s t) {u : Nat}
    (ht : t.enabled u = true) : levelAfter s.cfg u (s.enabled u) op = true := by
  cases h with
  | removes hu => rwa [levelAfter_of_ne (by simp [hu])]
  | waits hop => rwa [hop]
  | loads hop => rwa [hop]
  | @drives k v u' hop hu =>
    have hkey : op.key = k := by rcases hop with ⟨rfl, -⟩ | ⟨rfl, -⟩ <;> rfl
    rw [State.enabled_record] at ht
    by_cases heq : u = u'
    · subst heq
      rw [levelAfter_enable_self hop hu]
      cases v with
      | true => rfl
      | false => exact absurd ht (by rw [State.enabled_setEnable_false]; exact Bool.false_ne_true)
    · rw [State.enabled_setEnable_ne _ heq] at ht
      rwa [levelAfter_of_ne (by rw [hkey, hu]; exact fun h => heq (Option.some.inj h).symm)]

/-- Performing the head operation raises no level that the pending operations will leave. -/
theorem Performs.enabledAfterOps_le {op : Op} {rest : List Op} {s t : State} (hops : s.ops = op :: rest)
    (h : Performs op rest s t) {u : Nat} (ht : t.enabledAfterOps u = true) : s.enabledAfterOps u = true := by
  have hdone : t = s ∨ (t.ops = rest ∧ t.cfg = s.cfg) := by
    cases h with
    | waits => exact .inl rfl
    | removes | loads | drives => exact .inr ⟨rfl, rfl⟩
  rcases hdone with rfl | ⟨htops, hcfg⟩
  · exact ht
  · simp only [State.enabledAfterOps, htops, hcfg] at ht
    simp only [State.enabledAfterOps, hops, List.foldl_cons]
    exact foldl_levelAfter_mono rest h.enabled_le ht

theorem State.enabledAfterOps_issue (s : State) (op : Op) (u : Nat) :
    (s.issue op).enabledAfterOps u = levelAfter s.cfg u (s.enabledAfterOps u) op := by
  simp [State.enabledAfterOps]

theorem State.enabledAfterOps_setVel (s : State) (c : Channel) (v : BitVec 8) (u : Nat) :
    (s.setVel c v).enabledAfterOps u = s.enabledAfterOps u := rfl

theorem State.entry_setPw_note (s : State) (c c' : Channel) (v : Wheel) :
    ((s.setPw c v).entry c').note = (s.entry c').note := by
  rw [State.setPw, State.entry_setEntry]
  split
  · next h => rw [h]
  · rfl

theorem State.entry_setPw_vel (s : State) (c c' : Channel) (v : Wheel) :
    ((s.setPw c v).entry c').vel = (s.entry c').vel := by
  rw [State.setPw, State.entry_setEntry]
  split
  · next h => rw [h]
  · rfl

namespace SilentIsUndriven

variable {s t : State}

/-- The invariant speaks of the configuration, the table and the levels alone, and lower levels keep it. -/
theorem of_le (h : SilentIsUndriven s) (hcfg : t.cfg = s.cfg) (hentry : ∀ c, t.entry c = s.entry c)
    (hle : ∀ u, t.enabledAfterOps u = true → s.enabledAfterOps u = true) : SilentIsUndriven t := by
  intro hfamily c u hvel hu
  rw [hcfg, hentry] at *
  exact Bool.eq_false_iff.mpr fun ht => Bool.eq_false_iff.mp (h hfamily c u hvel hu) (hle u ht)

theorem messageAccepted (h : SilentIsUndriven s) : SilentIsUndriven s.messageAccepted :=
  h.of_le (by simp) (by simp) (by simp [State.enabledAfterOps])

/-- Issuing a `Stop` lowers levels alone. -/
theorem issue_stop (h : SilentIsUndriven s) (k : Key) : SilentIsUndriven (s.issue (.stop k)) :=
  h.of_le rfl (fun _ => rfl) fun u ht => by
    rw [State.enabledAfterOps_issue] at ht
    by_contra hlow
    rw [Bool.not_eq_true] at hlow
    simp [hlow, levelAfter_stop_of_low] at ht

/-- A message keeps "velocity 0 means undriven": a cleared velocity comes with a `Stop` of the same unit, and a `Start` with a
nonzero velocity, of a unit no other channel has (R30, R141 to R150). -/
theorem exec {i : Instr} (h : SilentIsUndriven s) (hcfg : s.cfg.wf) (hi : i.wf = true) (he : exec i s = .next t) :
    SilentIsUndriven t := by
  rcases exec_cases i s with he' | he' | ⟨c, note, hnote, -, he'⟩ | ⟨c, -, he'⟩ | ⟨c, note, vel, hz, rfl, -, he'⟩ |
    ⟨c, lo, hi, hz, -, -, he'⟩ <;> cases he'.symm.trans he
  · exact h
  · exact h
  · intro hfamily c' u hvel hu
    by_cases hc : c' = c
    · subst hc
      rw [State.enabledAfterOps_issue]
      exact levelAfter_enable_self (.inr ⟨rfl, rfl⟩) (by simpa [hnote] using hu)
    · rw [State.entry_issue, State.entry_setVel_ne _ hc] at hvel hu
      rw [State.enabledAfterOps_issue]
      exact (congrArg (levelAfter _ _ · _) (h hfamily c' u hvel hu)).trans levelAfter_stop_of_low
  · exact h.issue_stop _
  · intro hfamily c' u hvel hu
    by_cases hc : c' = c
    · subst hc
      have hzero : vel = 0#7 := BitVec.eq_of_toNat_eq (by
        rw [← velocityOf_toNat]
        simpa using congrArg BitVec.toNat hvel)
      exact absurd hzero (by simpa [Instr.wf] using hi)
    · simp only [State.entry_setVel_ne _ hc, State.entry_issue, State.entry_setNote_ne _ hc] at hvel hu
      have hother : unitOf s.cfg ⟨c, note⟩ ≠ some u := fun hmine => hc (unitMapIsInjective s.cfg _ _ u hcfg hu hmine).1
      rw [State.enabledAfterOps_setVel, State.enabledAfterOps_issue, levelAfter_of_ne hother,
        State.enabledAfterOps_issue, levelAfter_of_ne hother]
      exact h hfamily c' u hvel hu
  · intro hfamily c' u hvel hu
    rw [State.entry_issue, State.entry_setPw_vel] at hvel
    rw [State.entry_issue, State.entry_setPw_note] at hu
    rw [State.enabledAfterOps_issue]
    exact h hfamily c' u hvel hu

end SilentIsUndriven

/-- With nothing pending the levels to come are the levels. -/
theorem State.enabledAfterOps_of_nil {s : State} (hops : s.ops = []) (u : Nat) : s.enabledAfterOps u = s.enabled u := by
  rw [State.enabledAfterOps, hops, List.foldl_nil]

/-- Settles O55: at reset nothing is pending and no enable is driven. -/
theorem silentIsUndrivenAtReset : Obligations.SilentIsUndrivenAtReset := by
  intro cfg _ c u _ _
  exact (State.enabledAfterOps_of_nil rfl u).trans (State.resetOf_enabled cfg u)

/-- Settles O56: only the messages clear a velocity or ask for a level; every other move keeps the table and raises no level. -/
theorem stepKeepsSilentIsUndriven : Obligations.StepKeepsSilentIsUndriven := by
  intro s t hcfg h hstep
  cases step_moves hstep with
  | performs hat hp =>
    have hframe := hp.frame
    obtain ⟨-, -, hops⟩ := hat
    refine h.of_le hframe.cfg (fun c => ?_) fun u => hp.enabledAfterOps_le (s := s.popTurn) hops
    simp only [State.entry, hframe.tbl]
  | accepts => exact h.of_le (by simp) (by simp) (by simp [State.enabledAfterOps])
  | executes hready hb hm he => exact h.messageAccepted.exec (by simpa using hcfg) (Instr.ofMsg_wf _) he
  | resets => exact silentIsUndrivenAtReset s.cfg
  | stays | passes | rises | offers | receives | drains | senses => exact h

/-- Settles O57: with nothing pending the levels to come are the levels. -/
theorem silentChannelUndrivenWhenNothingPending : Obligations.SilentChannelUndrivenWhenNothingPending := by
  intro s c u h hops hfamily hvel hu
  rw [← State.enabledAfterOps_of_nil hops]
  exact h hfamily c u hvel hu

end Sys2Proof.Machine

namespace Sys2Proof.Machine

/-! ## Noninterference: updates beside what the messages, the operations and the engine's turn read and write -/

/-- The outcome with its next state changed by `f`, and a stop as it is. -/
def onNext (f : State → State) : Host.Outcome State Fault Refusal → Host.Outcome State Fault Refusal
  | .next s => .next (f s)
  | .fault r => .fault r
  | .refused r => .refused r

/-- `f` changes nothing that a message or an operation reads or writes: it commutes with each of their writes (R72). -/
structure Beside (f : State → State) : Prop where
  cfg : ∀ s, (f s).cfg = s.cfg
  entry : ∀ s c, (f s).entry c = s.entry c
  lpReady : ∀ s u, (f s).lpReady u = s.lpReady u
  setEntry : ∀ s c e, (f s).setEntry c e = f (s.setEntry c e)
  issue : ∀ s op, (f s).issue op = f (s.issue op)
  setFault : ∀ s, (f s).setFault = f s.setFault
  setOps : ∀ s ops, (f s).setOps ops = f (s.setOps ops)
  setEnable : ∀ s u v, (f s).setEnable u v = f (s.setEnable u v)
  enqueue : ∀ s u p, (f s).enqueue u p = f (s.enqueue u p)
  record : ∀ s o, (f s).record o = f (s.record o)

/-- `f` moreover changes nothing that the engine's turn reads or writes when it takes a byte (R110). -/
structure BesideEngine (f : State → State) : Prop extends Beside f where
  fault : ∀ s, (f s).fault = s.fault
  ops : ∀ s, (f s).ops = s.ops
  initDone : ∀ s, (f s).initDone = s.initDone
  rxData : ∀ s, (f s).rxData = s.rxData
  dec : ∀ s, (f s).dec = s.dec
  acceptByte : ∀ s, (f s).acceptByte = f s.acceptByte
  setDec : ∀ s d, (f s).setDec d = f (s.setDec d)

namespace Beside

variable {f : State → State}

theorem releaseNote (hf : Beside f) (c : Channel) (note : Data) (s : State) :
    releaseNote c note (f s) = f (releaseNote c note s) := by
  simp only [Machine.releaseNote, State.setVel, hf.entry, hf.setEntry, hf.issue]
  split <;> rfl

theorem execNoteOn (hf : Beside f) (c : Channel) (note vel : Data) (s : State) :
    execNoteOn c note vel (f s) = onNext f (execNoteOn c note vel s) := by
  simp only [Machine.execNoteOn, raiseInvalidFrequency, State.setNote, State.setVel, hf.cfg, hf.entry, hf.setEntry, hf.issue,
    hf.setFault]
  split <;> rfl

theorem execPitchBend (hf : Beside f) (c : Channel) (lo hi : Data) (s : State) :
    execPitchBend c lo hi (f s) = onNext f (execPitchBend c lo hi s) := by
  simp only [Machine.execPitchBend, raiseInvalidFrequency, State.setPw, hf.cfg, hf.entry, hf.setEntry, hf.issue, hf.setFault]
  split <;> rfl

theorem silenceChannel (hf : Beside f) (c : Channel) (s : State) : silenceChannel c (f s) = f (silenceChannel c s) := by
  simp only [Machine.silenceChannel, hf.entry, hf.issue]

theorem exec (hf : Beside f) (i : Instr) (s : State) : exec i (f s) = onNext f (exec i s) := by
  cases i with
  | noteOff c note vel => exact congrArg Host.Outcome.next (hf.releaseNote c note s)
  | noteOnV0 c note => exact congrArg Host.Outcome.next (hf.releaseNote c note s)
  | noteOn c note vel => exact hf.execNoteOn c note vel s
  | pitchBend c lo hi => exact hf.execPitchBend c lo hi s
  | ccAllSoundOff c val => exact congrArg Host.Outcome.next (hf.silenceChannel c s)
  | ccAllNotesOff c val => exact congrArg Host.Outcome.next (hf.silenceChannel c s)
  | cc | polyPress | progChg | chanPress | reserved => rfl

theorem performUnmapped (hf : Beside f) (op : Op) (rest : List Op) (s : State) :
    performUnmapped op rest (f s) = f (performUnmapped op rest s) := by
  simp only [Machine.performUnmapped, hf.setOps, hf.record]

theorem performEnable (hf : Beside f) (op : Op) (k : Key) (v : Bool) (rest : List Op) (s : State) :
    performEnable op k v rest (f s) = f (performEnable op k v rest s) := by
  simp only [Machine.performEnable, hf.cfg, hf.performUnmapped, hf.setOps, hf.setEnable, hf.record]
  split <;> rfl

theorem performSetFrequency (hf : Beside f) (k : Key) (hz : BitVec 16) (rest : List Op) (s : State) :
    performSetFrequency k hz rest (f s) = onNext f (performSetFrequency k hz rest s) := by
  simp only [Machine.performSetFrequency, hf.cfg, hf.lpReady, hf.performUnmapped, hf.setOps, hf.enqueue, hf.record]
  repeat' split
  all_goals rfl

theorem performOp (hf : Beside f) (op : Op) (rest : List Op) (s : State) :
    performOp op rest (f s) = onNext f (performOp op rest s) := by
  cases op with
  | setFrequency k hz => exact hf.performSetFrequency k hz rest s
  | start k => exact congrArg Host.Outcome.next (hf.performEnable _ k true rest s)
  | stop k => exact congrArg Host.Outcome.next (hf.performEnable _ k false rest s)

end Beside

namespace BesideEngine

variable {f : State → State}

theorem byteStep (hf : BesideEngine f) (s : State) (b : Byte) : byteStep (f s) b = onNext f (byteStep s b) := by
  simp only [Machine.byteStep, hf.dec, hf.acceptByte, hf.setDec]
  split
  · rfl
  · exact hf.exec _ _

theorem engineTurn (hf : BesideEngine f) (s : State) : engineTurn (f s) = onNext f (engineTurn s) := by
  have hready : (f s).rxReady = s.rxReady := by simp only [State.rxReady, hf.initDone, hf.fault, hf.ops]
  simp only [Machine.engineTurn, hf.fault, hf.ops, hf.rxData, hready]
  split
  · rfl
  · split
    · exact hf.performOp _ _ s
    · split
      · split
        · exact hf.byteStep s _
        · rfl
      · rfl

end BesideEngine

theorem beside_setDec (d : Decoder) : Beside (·.setDec d) := by
  constructor <;> intros <;> rfl

/-- The state with the turns to come replaced. -/
def State.schedule (turns : List Turn) (s : State) : State := { s with sched := turns }

theorem besideEngine_schedule (turns : List Turn) : BesideEngine (State.schedule turns) where
  acceptByte s := by cases hu : s.cfg.uartPresent <;> simp [State.acceptByte, State.schedule, hu]
  cfg _ := rfl
  entry _ _ := rfl
  lpReady _ _ := rfl
  setEntry _ _ _ := rfl
  issue _ _ := rfl
  setFault _ := rfl
  setOps _ _ := rfl
  setEnable _ _ _ := rfl
  enqueue _ _ _ := rfl
  record _ _ := rfl
  fault _ := rfl
  ops _ := rfl
  initDone _ := rfl
  rxData _ := rfl
  dec _ := rfl
  setDec _ _ := rfl

/-- The pairs after a pulse of `poll` (R211). -/
def State.pairsAfterPass (s : State) : Option (Vector Pair 4) :=
  if s.cfg.family = .scanner ∧ s.initDone then s.sup.map (passPairs s.cfg s.sense) else s.sup

/-- A pass writes the pairs alone, and reads the configuration, `init_done`, the sensors and the pairs alone (R211, R217). -/
theorem supervisorPass_eq (s : State) : supervisorPass s = { s with sup := s.pairsAfterPass } := by
  unfold supervisorPass State.pairsAfterPass
  split
  · next ps hsup =>
    rw [hsup]
    split
    · rfl
    · rw [← hsup]
  · next hsup => rw [hsup, Option.map_none, ite_self, ← hsup]

theorem beside_supervisorPass : Beside supervisorPass := by
  constructor <;> intros <;> simp only [supervisorPass_eq] <;> rfl

theorem besideEngine_supervisorPass : BesideEngine supervisorPass where
  toBeside := beside_supervisorPass
  acceptByte s := by
    cases hu : s.cfg.uartPresent <;> simp [State.acceptByte, supervisorPass_eq, State.pairsAfterPass, hu]
  fault s := by rw [supervisorPass_eq]
  ops s := by rw [supervisorPass_eq]
  initDone s := by rw [supervisorPass_eq]
  rxData s := by rw [supervisorPass_eq]; rfl
  dec s := by rw [supervisorPass_eq]
  setDec s d := by simp only [supervisorPass_eq]; rfl

/-! ### The unused decoder registers -/

/-- Two outcomes alike but for decoder registers that no open message uses. -/
inductive OutcomesAlike : Host.Outcome State Fault Refusal → Host.Outcome State Fault Refusal → Prop
  | next {s t : State} (h : SameButUnusedRegisters s t) : OutcomesAlike (.next s) (.next t)
  | fault (r : Fault) : OutcomesAlike (.fault r) (.fault r)
  | refused (r : Refusal) : OutcomesAlike (.refused r) (.refused r)

theorem outcomesAlike_refl (o : Host.Outcome State Fault Refusal) : OutcomesAlike o o := by
  cases o with
  | next s => exact .next ⟨⟨rfl, fun _ => ⟨rfl, rfl⟩, fun _ => rfl⟩, rfl⟩
  | fault r => exact .fault r
  | refused r => exact .refused r

section Alike

variable {d e : Decoder}

theorem outcomesAlike_onNext_setDec (h : DecoderAgrees d e) (o : Host.Outcome State Fault Refusal) :
    OutcomesAlike (onNext (·.setDec d) o) (onNext (·.setDec e) o) := by
  cases o with
  | next s => exact .next ⟨h, rfl⟩
  | fault r => exact .fault r
  | refused r => exact .refused r

/-- A byte moves agreeing decoders to agreeing ones, and what it executes does not read them (R23, R24). -/
theorem byteStep_alike (h : DecoderAgrees d e) (s : State) (b : Byte) :
    OutcomesAlike (byteStep (s.setDec d) b) (byteStep (s.setDec e) b) := by
  have haccept : ∀ d d', (s.setDec d).acceptByte.setDec d' = s.acceptByte.setDec d' := fun d d' => by
    cases hu : s.cfg.uartPresent <;> simp [State.acceptByte, State.setDec, hu]
  obtain ⟨hagrees, hemits⟩ := decodeByte_agrees h b
  cases hd : decodeByte d b with
  | mk d' emitted =>
    cases he : decodeByte e b with
    | mk e' emitted' =>
      rw [hd, he] at hagrees hemits
      obtain rfl : emitted = emitted' := hemits
      cases emitted with
      | none =>
        rw [byteStep_of_no_message (s := s.setDec d) hd, byteStep_of_no_message (s := s.setDec e) he, haccept, haccept]
        exact .next ⟨hagrees, rfl⟩
      | some m =>
        rw [byteStep_of_message (s := s.setDec d) hd, byteStep_of_message (s := s.setDec e) he, haccept, haccept,
          (beside_setDec d').exec, (beside_setDec e').exec]
        exact outcomesAlike_onNext_setDec hagrees _

theorem engineTurn_alike (h : DecoderAgrees d e) (s : State) :
    OutcomesAlike (engineTurn (s.setDec d)) (engineTurn (s.setDec e)) := by
  have hkept : OutcomesAlike (.next (s.setDec d)) (.next (s.setDec e)) := .next ⟨h, rfl⟩
  have hdata : ∀ d, (s.setDec d).rxData = s.rxData := fun _ => rfl
  have hready : ∀ d, (s.setDec d).rxReady = s.rxReady := fun _ => rfl
  simp only [engineTurn, State.setDec_fault, State.setDec_ops, hdata, hready]
  split
  · exact hkept
  · split
    · rw [(beside_setDec d).performOp, (beside_setDec e).performOp]
      exact outcomesAlike_onNext_setDec h _
    · split
      · split
        · exact byteStep_alike h s _
        · exact hkept
      · exact hkept

/-- The turns other than the engine's and `rst` have nothing to do with the decoder (R72). -/
theorem runTurn_setDec {turn : Turn} (hengine : turn ≠ .engine) (hrst : turn ≠ .rst) (s : State) (d : Decoder) :
    runTurn turn (s.setDec d) = onNext (·.setDec d) (runTurn turn s) := by
  cases turn with
  | engine => exact absurd rfl hengine
  | rst => exact absurd rfl hrst
  | poll => simp only [runTurn, supervisorPass_eq]; rfl
  | initDone v =>
    simp only [runTurn, initDoneTurn, State.setDec_initDone]
    cases s.initDone <;> cases v <;> rfl
  | offer b => cases hu : s.cfg.uartPresent <;> simp [runTurn, offerTurn, onNext, State.setDec, hu]
  | uartBit v => cases hu : s.cfg.uartPresent <;> simp [runTurn, uartTurn, onNext, State.setDec, hu]
  | drain u => rfl
  | sense i v => by_cases hf : s.cfg.family = .scanner <;> simp [runTurn, senseTurn, onNext, State.setDec, hf]

theorem runTurn_alike (h : DecoderAgrees d e) (turn : Turn) (s : State) :
    OutcomesAlike (runTurn turn (s.setDec d)) (runTurn turn (s.setDec e)) := by
  by_cases hengine : turn = .engine
  · subst hengine
    exact engineTurn_alike h s
  · by_cases hrst : turn = .rst
    · subst hrst
      exact outcomesAlike_refl (.next (resetTurn s))
    · rw [runTurn_setDec hengine hrst, runTurn_setDec hengine hrst]
      exact outcomesAlike_onNext_setDec h _

end Alike

/-- Settles O14: the two states are one state with two agreeing decoders, and every turn answers alike from these. -/
theorem unusedDecoderRegistersUnobservable : Obligations.UnusedDecoderRegistersUnobservable := by
  rintro s t ⟨hagrees, ht⟩
  have halike : OutcomesAlike (step s) (step t) := by
    rw [ht]
    exact runTurn_alike hagrees (nextTurn s) s.popTurn
  refine ⟨fun s' hs => ?_, fun r hs => ?_, fun r hs => ?_⟩ <;> rw [hs] at halike
  · generalize step t = o at halike
    cases halike with
    | next h => exact ⟨_, rfl, h⟩
  · generalize step t = o at halike
    cases halike with
    | fault => rfl
  · generalize step t = o at halike
    cases halike with
    | refused => rfl

/-! ### Two turns in either order -/

section Run

variable {k : Nat} {s t : State}

theorem run_succ_of_next (h : step s = .next t) : Sys2Proof.core.run (k + 1) s = Sys2Proof.core.run k t := by
  have hcore : Sys2Proof.core.step s = .next t := h
  simp only [Host.Core.run, hcore]

theorem run_one_eq_step (s : State) : Sys2Proof.core.run 1 s = step s := by
  have hcore : Sys2Proof.core.step s = step s := rfl
  cases h : step s <;> simp only [Host.Core.run, hcore, h] <;> rfl

theorem run_succ_eq_of_fault {r : Fault} (h : step s = .fault r) : Sys2Proof.core.run (k + 1) s = .fault r := by
  have hcore : Sys2Proof.core.step s = .fault r := h
  simp only [Host.Core.run, hcore]

theorem run_succ_eq_of_refused {r : Refusal} (h : step s = .refused r) : Sys2Proof.core.run (k + 1) s = .refused r := by
  have hcore : Sys2Proof.core.step s = .refused r := h
  simp only [Host.Core.run, hcore]

end Run

/-- Settles O43: a pass, and the scheduling of one, are both beside the engine's turn, so both orders are that turn followed by
the pass. -/
theorem passAndEngineStepCommute : Obligations.PassAndEngineStepCommute := by
  intro s rest
  have hpollFirst : Sys2Proof.core.run 2 { s with sched := .poll :: .engine :: rest } =
      onNext supervisorPass (onNext (State.schedule rest) (engineTurn s)) := by
    have hpoll : step { s with sched := .poll :: .engine :: rest } =
        .next (supervisorPass (s.schedule (.engine :: rest))) := rfl
    have hengine : step (supervisorPass (s.schedule (.engine :: rest))) = engineTurn (supervisorPass (s.schedule rest)) := by
      rw [supervisorPass_eq, supervisorPass_eq]; rfl
    rw [run_succ_of_next hpoll, run_one_eq_step, hengine, besideEngine_supervisorPass.engineTurn,
      (besideEngine_schedule rest).engineTurn]
  have hengineFirst : Sys2Proof.core.run 2 { s with sched := .engine :: .poll :: rest } =
      onNext supervisorPass (onNext (State.schedule rest) (engineTurn s)) := by
    have hstep : step { s with sched := .engine :: .poll :: rest } =
        onNext (State.schedule (.poll :: rest)) (engineTurn s) := (besideEngine_schedule (.poll :: rest)).engineTurn s
    cases hturn : engineTurn s with
    | next t =>
      have hpoll : step (t.schedule (.poll :: rest)) = .next (supervisorPass (t.schedule rest)) := rfl
      rw [run_succ_of_next (hstep.trans (congrArg _ hturn)), run_one_eq_step, hpoll]
      rfl
    | fault r => exact run_succ_eq_of_fault (hstep.trans (congrArg _ hturn))
    | refused r => exact run_succ_eq_of_refused (hstep.trans (congrArg _ hturn))
  rw [hpollFirst, hengineFirst]

end Sys2Proof.Machine

namespace Sys2Proof.Machine

/-! ## Dispatch under way: the head operation, the period port, and the end-to-end path of a NOTEON -/

/-- On the engine's turn a halted context does nothing (R231). -/
theorem step_of_halted {s : State} (hturn : nextTurn s = .engine) (hfault : s.fault = true) : step s = .next s.popTurn := by
  rw [step_of_engine hturn]
  simp [engineTurn, hfault]

section HeadOperation

variable {s t : State} {op : Op} {rest : List Op} {k : Key} {hz : BitVec 16} {u : Nat} {v : Bool}

/-- Performing SETFREQUENCY of a mapped key once its unit's queue has room (R197). -/
theorem step_setFrequency_of_ready (hat : AtOperation s (.setFrequency k hz) rest) (hu : unitOf s.cfg k = some u)
    (hhz : hz ≠ 0#16) (hready : s.lpReady u = true) :
    step s = .next (((s.popTurn.setOps rest).enqueue u (periodOf s.cfg.constants hz)).record
      (.loadPeriod u (periodOf s.cfg.constants hz))) :=
  (step_of_atOperation hat).trans (performSetFrequency_of_ready (s := s.popTurn) hu hhz hready)

/-- SETFREQUENCY waits while its unit's queue is full (R192). -/
theorem step_setFrequency_of_full (hat : AtOperation s (.setFrequency k hz) rest) (hu : unitOf s.cfg k = some u)
    (hhz : hz ≠ 0#16) (hfull : s.lpReady u = false) : step s = .next s.popTurn :=
  (step_of_atOperation hat).trans (performSetFrequency_of_full (s := s.popTurn) hu hhz hfull)

/-- Performing START (`v` high) or STOP (`v` low) of a mapped key (R195, R196). -/
theorem step_enable_of_mapped (hat : AtOperation s op rest) (hop : (op = .start k ∧ v = true) ∨ (op = .stop k ∧ v = false))
    (hu : unitOf s.cfg k = some u) :
    step s = .next (((s.popTurn.setOps rest).setEnable u v).record (.enable u v)) :=
  (step_of_atOperation hat).trans (performOp_enable_of_mapped (s := s.popTurn) hop hu)

/-- Unless it waits for room, performing an operation removes it, with the observation, the levels and the loads it asks for (R194
to R197). -/
theorem Performs.effect (h : Performs op rest s t)
    (hroom : ∀ k hz u, op = .setFrequency k hz → unitOf s.cfg k = some u → s.lpReady u = true) :
    t.ops = rest ∧ t.trace = s.trace ++ [observedOf s.cfg op] ∧
      (∀ u, u < s.en.length → t.enabled u = levelAfter s.cfg u (s.enabled u) op) ∧
      (∀ u, u < s.queues.length → t.queue u = s.queue u ++ loadedBy s.cfg u op) := by
  cases h with
  | removes hu =>
    have hne : ∀ u, unitOf s.cfg op.key ≠ some u := fun u => by simp [hu]
    refine ⟨rfl, by simp [observedOf, hu], fun u _ => ?_, fun u _ => ?_⟩
    · rw [levelAfter_of_ne (hne u)]; rfl
    · rw [loadedBy_of_ne (hne u), List.append_nil]; rfl
  | waits hop hu hfull => exact absurd (hroom _ _ _ hop hu) (by simp [hfull])
  | @loads k hz u hop hu hready =>
    subst hop
    refine ⟨rfl, by simp [observedOf, Op.key, hu], fun _ _ => rfl, fun u' hlt => ?_⟩
    rw [State.queue_record]
    by_cases heq : u' = u
    · subst heq
      rw [(s.setOps rest).queue_enqueue_self hlt]
      simp [loadedBy, hu]
    · rw [State.queue_enqueue_ne _ heq, loadedBy_of_ne (by simp [Op.key, hu, Ne.symm heq])]
      simp
  | @drives k v u hop hu =>
    have hkey : op.key = k := by rcases hop with ⟨rfl, -⟩ | ⟨rfl, -⟩ <;> rfl
    have hobserved : observedOf s.cfg op = .enable u v := by
      rcases hop with ⟨rfl, rfl⟩ | ⟨rfl, rfl⟩ <;> simp [observedOf, Op.key, hu]
    have hloads : ∀ u', loadedBy s.cfg u' op = [] := fun u' => by
      rcases hop with ⟨rfl, -⟩ | ⟨rfl, -⟩ <;> rfl
    refine ⟨rfl, by simp [hobserved], fun u' hlt => ?_, fun u' _ => by simp [hloads]⟩
    rw [State.enabled_record]
    by_cases heq : u' = u
    · subst heq
      rw [(s.setOps rest).enabled_setEnable_self hlt, levelAfter_enable_self hop hu]
    · rw [State.enabled_setEnable_ne _ heq, levelAfter_of_ne (by simp [hkey, hu, Ne.symm heq])]
      rfl

/-- Where the unit's queue is full, performing SETFREQUENCY changes nothing (R192). -/
theorem Performs.eq_of_full (h : Performs (.setFrequency k hz) rest s t) (hu : unitOf s.cfg k = some u)
    (hfull : s.lpReady u = false) : t = s := by
  cases h with
  | removes hnone => exact absurd (hu.symm.trans hnone) nofun
  | waits => rfl
  | loads hop hu' hready =>
    cases hop
    cases hu.symm.trans hu'
    exact absurd hready (by simp [hfull])
  | drives hop => rcases hop with ⟨hop, -⟩ | ⟨hop, -⟩ <;> cases hop

end HeadOperation

/-- Settles O35: halted, the turn does nothing; else it performs the head operation, which stays in its frame. -/
theorem pendingOperationsPrecedeBytes : Obligations.PendingOperationsPrecedeBytes := by
  intro s t op rest hturn hops hstep
  cases hfault : s.fault
  · have hp : Performs op rest s.popTurn t :=
      performOp_performs ((step_of_atOperation ⟨hturn, hfault, hops⟩).symm.trans hstep)
    have hframe := hp.frame
    refine ⟨⟨hframe.dec, hframe.tbl, hframe.offered, hframe.uart, hframe.fault.trans hfault⟩,
      fun _ hroom => hp.effect hroom, ?_⟩
    rintro (hhalted | ⟨k, hz, u, rfl, hu, hfull⟩)
    · cases hhalted
    · exact hp.eq_of_full hu hfull
  · cases (step_of_halted hturn hfault).symm.trans hstep
    exact ⟨⟨rfl, rfl, rfl, rfl, hfault⟩, nofun, fun _ => rfl⟩

/-- Settles O32: performing the operation is the division by zero of I1. -/
theorem zeroFrequencyOperationFaults : Obligations.ZeroFrequencyOperationFaults := by
  intro s k rest hat hmapped
  obtain ⟨u, hu⟩ := Option.isSome_iff_exists.mp hmapped
  rw [step_of_atOperation hat]
  simp [performOp, performSetFrequency, hu]

/-- A `load_period` is offered exactly for the SETFREQUENCY of a mapped key at the head of `ops` (R38, R197). -/
theorem lpOffer_eq_some {s : State} {u : Nat} {p : BitVec 32} (h : s.lpOffer = some (u, p)) :
    s.fault = false ∧ ∃ k hz rest, s.ops = .setFrequency k hz :: rest ∧ unitOf s.cfg k = some u ∧
      p = periodOf s.cfg.constants hz := by
  unfold State.lpOffer at h
  split at h
  · cases h
  · next hfault =>
    refine ⟨by simpa using hfault, ?_⟩
    split at h
    · next k hz rest hops =>
      split at h
      · next u' hu =>
        cases h
        exact ⟨k, hz, rest, hops, hu, rfl⟩
      · cases h
    all_goals cases h

/-- Under the invariant every unit a key has is one of the enables and one of the queues (R12, R31, R33). -/
theorem StateInv.unit_lt {s : State} (h : StateInv s) {k : Key} {u : Nat} (hu : unitOf s.cfg k = some u) :
    u < s.en.length ∧ u < s.queues.length := by
  obtain ⟨-, -, hlt⟩ := unitMapIsInjective s.cfg k k u h.cfg_wf hu hu
  exact ⟨h.en_length ▸ hlt, h.queues_length ▸ hlt⟩

/-- Settles O36: what is offered is the head operation's period, and performing it appends it or waits. -/
theorem periodPortTransfersWhenValidAndReady : Obligations.PeriodPortTransfersWhenValidAndReady := by
  intro s u p h hturn hoffer
  obtain ⟨hfault, k, hz, rest, hops, hu, rfl⟩ := lpOffer_eq_some hoffer
  have hat : AtOperation s (.setFrequency k hz) rest := ⟨hturn, hfault, hops⟩
  have hhz : hz ≠ 0#16 := h.ops_nonzero k hz (hops ▸ List.mem_cons_self) (hu ▸ rfl)
  cases hready : s.lpReady u
  · exact ⟨_, step_setFrequency_of_full hat hu hhz hready, nofun, fun _ => rfl⟩
  · refine ⟨_, step_setFrequency_of_ready hat hu hhz hready, fun _ => ⟨?_, by simp [hops]⟩, nofun⟩
    exact (s.popTurn.setOps rest).queue_enqueue_self (h.unit_lt hu).2 _

/-- Reading the queue just drained, whether the unit exists or not. -/
theorem State.queue_dequeue_self (s : State) (u : Nat) : (s.dequeue u).queue u = (s.queue u).tail := by
  by_cases hu : u < s.queues.length <;> simp [State.queue, hu]

/-- Settles O37: the queue held at most `QDEPTH` periods, which is at least 1, and holds one less. -/
theorem drainGivesRoom : Obligations.DrainGivesRoom := by
  intro s u h hturn _
  have hstep : step s = .next (s.popTurn.dequeue u) := by rw [step_eq, hturn]; rfl
  have hqueue : (s.popTurn.dequeue u).queue u = (s.queue u).tail := s.popTurn.queue_dequeue_self u
  refine ⟨_, hstep, ?_, hqueue, rfl, rfl⟩
  have hbound := h.queue_length_le u
  obtain ⟨-, -, -, -, -, hdepth⟩ := h.cfg_wf
  rw [State.lpReady, hqueue, List.length_tail, decide_eq_true_iff]
  exact show (s.queue u).length - 1 < s.cfg.qdepth by omega

/-- The two operations of a NOTEON, performed by an engine left alone, load the period and assert the enable (R143, R195, R197). -/
theorem run_two_setFrequency_start {s : State} {k : Key} {hz : BitVec 16} {u : Nat} (hsched : s.sched = [])
    (hfault : s.fault = false) (hops : s.ops = [.setFrequency k hz, .start k]) (hu : unitOf s.cfg k = some u)
    (hhz : hz ≠ 0#16) (hroom : s.lpReady u = true) (hen : u < s.en.length) (hqueues : u < s.queues.length) :
    ∃ t, Sys2Proof.core.run 2 s = .next t ∧ t.enabled u = true ∧
      t.queue u = s.queue u ++ [periodOf s.cfg.constants hz] ∧
      t.trace = s.trace ++ [.loadPeriod u (periodOf s.cfg.constants hz), .enable u true] ∧
      t.tbl = s.tbl ∧ t.initDone = s.initDone ∧ t.fault = s.fault ∧ t.ops = [] := by
  have hat : AtOperation s (.setFrequency k hz) [.start k] := ⟨by simp [nextTurn, hsched], hfault, hops⟩
  have hload := step_setFrequency_of_ready hat hu hhz hroom
  generalize hs' : ((s.popTurn.setOps [.start k]).enqueue u (periodOf s.cfg.constants hz)).record
    (.loadPeriod u (periodOf s.cfg.constants hz)) = s' at hload
  have hqueue : s'.queue u = s.queue u ++ [periodOf s.cfg.constants hz] := by
    rw [← hs']
    exact (s.popTurn.setOps [.start k]).queue_enqueue_self hqueues _
  have hat' : AtOperation s' (.start k) [] := by simp [AtOperation, ← hs', nextTurn, hsched, hfault]
  have hdrive := step_enable_of_mapped hat' (.inl ⟨rfl, rfl⟩) (by rw [← hs']; exact hu)
  refine ⟨((s'.popTurn.setOps []).setEnable u true).record (.enable u true), ?_, ?_, hqueue, ?_, ?_⟩
  · exact (run_succ_of_next hload).trans ((run_one_eq_step s').trans hdrive)
  · exact (s'.popTurn.setOps []).enabled_setEnable_self (by simpa [← hs'] using hen) true
  · simp [← hs']
  · simp [← hs']

/-- Settles O38: the byte executes the NOTEON, whose two operations the next two steps perform. -/
theorem noteOnReachesItsUnitInThreeSteps : Obligations.NoteOnReachesItsUnitInThreeSteps := by
  intro s b c note vel u hz h hsched hready hb hdecode hu hhz hne hroom
  have ⟨_, hinit, hfault, hops⟩ := hready
  obtain ⟨hen, hqueues⟩ := h.unit_lt hu
  obtain ⟨s', hexec, hentry, hops', hfault', hframe⟩ :=
    noteOnStoresAndIssues s.messageAccepted c note vel hz (by simpa using hhz) (.inl hne)
  have hstep : step s = .next s' := (stepRunsDecodedInstruction s b _ hready hb hdecode).trans hexec
  have hcfg : s'.cfg = s.cfg := hframe.cfg.trans s.messageAccepted_cfg
  have hqueues' : s'.queues = s.queues := hframe.queues.trans s.messageAccepted_queues
  have hsched' : s'.sched = [] := by simp [hframe.sched, State.messageAccepted, hsched]
  obtain ⟨t, hrun, hlevel, hqueue, htrace, htbl, hinit', hfault'', hdone⟩ :=
    run_two_setFrequency_start (s := s') (u := u) hsched' (by simp [hfault', hfault]) (by simp [hops', hops])
      (hcfg ▸ hu) hne (by simpa [State.lpReady, State.queue, hcfg, hqueues'] using hroom)
      (by simpa [hframe.en] using hen) (hqueues' ▸ hqueues)
  refine ⟨t, (run_succ_of_next hstep).trans hrun, hlevel, ?_, ?_, ?_, ?_⟩
  · simpa [State.queue, hcfg, hqueues'] using hqueue
  · simpa [hcfg, hframe.trace] using htrace
  · have hkept : t.entry c = s'.entry c := by simp only [State.entry, htbl]
    rw [hkept, hentry, s.messageAccepted_entry]
  · exact t.rxReady_iff.mpr ⟨by simp [hinit', hframe.initDone, hinit], by simp [hfault'', hfault', hfault], hdone⟩

end Sys2Proof.Machine

namespace Sys2Proof.Machine

/-! ## The Direction Supervisor: one pair in one pass, and over many -/

section PassPair

variable (v : Bool) (p : Pair)

/-- After a pass the debounce bit is the reading (R212 to R215). -/
theorem passPair_latched : (passPair v p).latched = v := by
  obtain ⟨dir, latched⟩ := p
  cases v <;> cases latched <;> rfl

/-- A pass flips the direction exactly where the reading is triggered and the pair was not latched (R212 to R215). -/
theorem passPair_dir : (passPair v p).dir = if v && !p.latched then !p.dir else p.dir := by
  obtain ⟨dir, latched⟩ := p
  cases v <;> cases latched <;> rfl

end PassPair

theorem passPairs_getElem (cfg : Config) (sense : Vector Bool 4) (ps : Vector Pair 4) (i : Fin 4) :
    (passPairs cfg sense ps)[i.val] = passPair (isTriggered cfg sense[i.val]) ps[i.val] := by
  fin_cases i <;> rfl

theorem isTriggered_iff (cfg : Config) (level : Bool) : isTriggered cfg level = true ↔ level = cfg.sensorActiveHigh := by
  simp [isTriggered]

theorem step_of_poll {s : State} (h : nextTurn s = .poll) : step s = .next (supervisorPass s.popTurn) := by
  rw [step_eq, h]; rfl

/-- Settles O39: the pass treats each pair on its own reading, and the three clauses are the rows of R212 to R215. -/
theorem passFollowsTheTable : Obligations.PassFollowsTheTable := by
  intro s ps hturn hfamily hinit hsup
  have hpass : supervisorPass s.popTurn = s.popTurn.setPairs (passPairs s.cfg s.sense ps) := by
    simp [supervisorPass, hsup, hfamily, hinit]
  refine ⟨passPairs s.cfg s.sense ps, by rw [step_of_poll hturn, hpass], fun i => ⟨fun hlevel hlatched => ?_,
    fun hlevel hlatched => ?_, fun hlevel => ?_⟩⟩ <;> rw [passPairs_getElem]
  · rw [(isTriggered_iff _ _).mpr hlevel]
    simp [passPair, hlatched]
  · rw [(isTriggered_iff _ _).mpr hlevel]
    simp [passPair, hlatched]
  · rw [Bool.eq_false_iff.mpr (mt (isTriggered_iff _ _).mp hlevel)]
    simp [passPair]

/-- Settles O40: either reason leaves the pass undone. -/
theorem noPassElsewhere : Obligations.NoPassElsewhere := by
  intro s hturn hnone
  rw [step_of_poll hturn]
  rcases supervisorPass_cases s.popTurn with he | ⟨hfamily, hinit, -⟩
  · rw [he]
  · exact absurd hnone (not_or.mpr ⟨not_not_intro hfamily, Bool.not_eq_false _ ▸ hinit⟩)

/-- R216 from any pair: the debounce bit is the reading before, so a flip is the beginning of a triggered run. -/
theorem flips_eq_runs (p : Pair) (readings : List Bool) :
    flipsOf p readings = runsOf p.latched readings ∧
      (passesOf p readings).dir = (if runsOf p.latched readings % 2 = 1 then !p.dir else p.dir) := by
  induction readings generalizing p with
  | nil => exact ⟨rfl, rfl⟩
  | cons v readings ih =>
    obtain ⟨hflips, hdir⟩ := ih (passPair v p)
    rw [passPair_latched] at hflips hdir
    simp only [flipsOf, passesOf, runsOf, hflips, hdir, passPair_dir]
    by_cases hbegins : (v && !p.latched) = true
    · rcases Nat.mod_two_eq_zero_or_one (runsOf v readings) with heven | hodd
      · simp [-Bool.and_eq_true, hbegins, Nat.add_mod, heven]
      · simp [-Bool.and_eq_true, hbegins, Nat.add_mod, hodd]
    · simp [-Bool.and_eq_true, hbegins]

/-- Settles O41: the pair starts as after a reading that is not triggered. -/
theorem oneFlipPerTriggeredRun : Obligations.OneFlipPerTriggeredRun := by
  intro p readings hlatched
  rw [← hlatched]
  exact flips_eq_runs p readings

end Sys2Proof.Machine

namespace Sys2Proof.Machine

/-! ## Who changes what: the frames of all turns -/

/-- Settles O51: each move is a write of other fields. -/
theorem configurationIsFixed : Obligations.ConfigurationIsFixed := by
  intro s t hstep
  cases step_moves hstep with
  | performs hat hp => exact hp.frame.cfg
  | accepts => simp
  | executes hready hb hm he => exact (exec_frame he).cfg.trans s.messageAccepted_cfg
  | stays | passes | resets | rises | offers | receives | drains | senses => rfl

/-- Settles O44: the engine moves only where the bit is clear, and no other move but reset writes it. -/
theorem faultIsStickyUntilReset : Obligations.FaultIsStickyUntilReset := by
  intro s t hstep hfault hrst
  have hnotReady : ¬ ReadyForByte s := fun ⟨_, _, hclear, _⟩ => absurd hfault (by simp [hclear])
  cases step_moves hstep with
  | performs hat =>
    obtain ⟨-, hclear, -⟩ := hat
    exact absurd hfault (by simp [hclear])
  | accepts hready => exact absurd hready hnotReady
  | executes hready => exact absurd hready hnotReady
  | resets hturn => exact absurd hturn hrst
  | stays | passes | rises | offers | receives | drains | senses => exact hfault

/-- Settles O45: `rx_ready` needs `fault = 0`, and the engine's turn looks at the bit first. -/
theorem haltedContextTakesNoStep : Obligations.HaltedContextTakesNoStep :=
  fun s hfault => ⟨by simp [State.rxReady, hfault], fun hturn => step_of_halted hturn hfault⟩

/-- Accepting a byte takes the oldest one on offer at the byte interface, or the UART's (R110). -/
theorem State.acceptByte_offered (s : State) : s.acceptByte.offered = s.offered ∨ s.acceptByte.offered = s.offered.tail := by
  unfold State.acceptByte
  split
  · exact .inl rfl
  · exact .inr rfl

/-- What the engine's moves leave of the supervisor and of the inputs (R70, R72). -/
theorem engine_move_frame {s t : State} (hturn : nextTurn s = .engine) (hmove : StepMove s t) :
    t.sup = s.sup ∧ t.sense = s.sense ∧ (t.offered = s.offered ∨ t.offered = s.offered.tail) := by
  cases hmove with
  | stays => exact ⟨rfl, rfl, .inl rfl⟩
  | performs hat hp =>
    have hframe := hp.frame
    exact ⟨hframe.sup, hframe.sense, .inl hframe.offered⟩
  | accepts => exact ⟨by simp, by simp, s.popTurn.acceptByte_offered⟩
  | executes hready hb hm he =>
    have hframe := exec_frame he
    refine ⟨by simp [hframe.sup], by simp [hframe.sense], ?_⟩
    rw [hframe.offered]
    exact s.popTurn.acceptByte_offered
  | passes h | resets h | rises h | offers h | receives h | drains h | senses h => cases hturn.symm.trans h

/-- Settles O42: the sender's and the sensors' turns evaluated, and each other move read off what it writes. -/
theorem eachLineHasOneWriter : Obligations.EachLineHasOneWriter := by
  intro s
  refine ⟨fun b hturn => ?_, fun i v hturn => ?_, fun t hstep => ?_⟩
  · have hoffer : step s = .next (offerTurn b s.popTurn) := by rw [step_eq, hturn]; rfl
    exact ⟨fun huart => by simp [hoffer, offerTurn, huart], fun huart => by simp [hoffer, offerTurn, huart]⟩
  · have hsense : step s = .next (senseTurn i v s.popTurn) := by rw [step_eq, hturn]; rfl
    refine ⟨fun hfamily => ⟨{ s.popTurn with sense := s.sense.set i v }, by simp [hsense, senseTurn, hfamily], rfl,
      fun j => ?_⟩, fun hfamily => by simp [hsense, senseTurn, hfamily]⟩
    simp [Vector.getElem_set, Fin.ext_iff, eq_comm]
  · have hmove := step_moves hstep
    by_cases hengine : nextTurn s = .engine
    · obtain ⟨hsup, hsense, hoffered⟩ := engine_move_frame hengine hmove
      exact ⟨by simp [hengine], fun _ _ => hsup, fun hne => absurd hengine hne,
        fun _ => hoffered.imp_right fun htail => ⟨hengine, htail⟩, fun _ => hsense⟩
    · cases hmove with
      | performs hat => exact absurd hat.1 hengine
      | accepts hready => exact absurd hready.1 hengine
      | executes hready => exact absurd hready.1 hengine
      | stays =>
        exact ⟨fun _ => rfl, fun _ _ => rfl, fun _ _ => ⟨rfl, rfl, rfl, rfl, rfl, rfl⟩, fun _ => .inl rfl, fun _ => rfl⟩
      | passes hturn =>
        exact ⟨fun _ => rfl, fun hne => absurd hturn hne, fun _ _ => ⟨rfl, rfl, rfl, rfl, rfl, rfl⟩, fun _ => .inl rfl,
          fun _ => rfl⟩
      | resets hturn =>
        exact ⟨by simp [hturn], fun _ hne => absurd hturn hne, fun _ hne => absurd hturn hne, fun _ => .inl rfl,
          fun _ => rfl⟩
      | rises hturn | receives hturn | drains hturn =>
        exact ⟨by simp [hturn], fun _ _ => rfl, fun _ _ => ⟨rfl, rfl, rfl, rfl, rfl, rfl⟩, fun _ => .inl rfl, fun _ => rfl⟩
      | offers hturn =>
        exact ⟨by simp [hturn], fun _ _ => rfl, fun _ _ => ⟨rfl, rfl, rfl, rfl, rfl, rfl⟩,
          fun hne => absurd hturn (hne _), fun _ => rfl⟩
      | senses hturn =>
        exact ⟨by simp [hturn], fun _ _ => rfl, fun _ _ => ⟨rfl, rfl, rfl, rfl, rfl, rfl⟩, fun _ => .inl rfl,
          fun hne => absurd hturn (hne _ _)⟩

/-- Settles O50: the three level changes of `init_done` that the statement names, evaluated. -/
theorem initDoneRisesOnce : Obligations.InitDoneRisesOnce := by
  intro s v hturn
  have hstep : step s = initDoneTurn v s.popTurn := by rw [step_eq, hturn]; rfl
  refine ⟨?_, ?_, ?_⟩
  · rintro hlow rfl
    refine ⟨{ s.popTurn with initDone := true, queues := List.replicate s.cfg.nUnits [] }, ?_, rfl, fun u => ?_, rfl, rfl, rfl⟩
    · simp [hstep, initDoneTurn, hlow]
    · exact List.getElem?_getD_replicate_default_eq [] s.cfg.nUnits u
  · rintro hhigh rfl
    simp [hstep, initDoneTurn, hhigh]
  · rintro hhigh rfl
    simp [hstep, initDoneTurn, hhigh]

end Sys2Proof.Machine

namespace Sys2Proof.Machine

/-! ## The UART front end: a frame, bit by bit -/

theorem uartSteps_append (u : Uart) (vs ws : List Bool) : uartSteps u (vs ++ ws) = uartSteps (uartSteps u vs) ws := by
  induction vs generalizing u with
  | nil => rfl
  | cons v vs ih => exact ih (uartStep u v)

/-- The eight data bits, collected least significant first, are the byte (R65). -/
theorem collectBit_frame (b : Byte) : (List.finRange 8).foldl (fun got n => collectBit got n (b.getLsbD n)) 0#8 = b := by
  revert b; decide

/-- The start bit and the data bits of a byte's frame leave an idle receiver awaiting the stop bit (R120). -/
theorem uartSteps_startAndData (hold : Option Byte) (b : Byte) :
    uartSteps { rx := .idle, hold := hold } ((frameOf b).take 9) = { rx := .stop b, hold := hold } :=
  congrArg (fun got => Uart.mk (.stop got) hold) (collectBit_frame b)

/-- A frame ends as its stop bit says (R120 to R122). -/
theorem uartSteps_frame {u : Uart} (hidle : u.rx = .idle) (b : Byte) (v : Bool) :
    uartSteps u ((frameOf b).take 9 ++ [v]) = endFrame { u with rx := .stop b } b v := by
  obtain ⟨rx, hold⟩ := u
  obtain rfl : rx = .idle := hidle
  rw [uartSteps_append, uartSteps_startAndData]
  rfl

/-- A frame with a stop bit of 0 leaves an idle receiver as it was (R121). -/
theorem uartSteps_badFrame {u : Uart} (hidle : u.rx = .idle) (b : Byte) :
    uartSteps u ((frameOf b).take 9 ++ [false]) = u := by
  rw [uartSteps_frame hidle]
  simp [endFrame, ← hidle]

/-- Where the UART is built, scheduled bit times run the receiver and change nothing else (R120). -/
theorem run_uartBits {s : State} (huart : s.cfg.uartPresent = true) {vs : List Bool} {rest : List Turn}
    (hsched : s.sched = vs.map .uartBit ++ rest) :
    Sys2Proof.core.run vs.length s = .next { s with uart := uartSteps s.uart vs, sched := rest } := by
  induction vs generalizing s with
  | nil =>
    obtain rfl : s.sched = rest := hsched
    rfl
  | cons v vs ih =>
    have hstep : step s = .next { s with uart := uartStep s.uart v, sched := vs.map .uartBit ++ rest } := by
      rw [step_eq]
      simp [nextTurn, hsched, runTurn, uartTurn, huart, State.popTurn]
    exact (run_succ_of_next hstep).trans (ih huart rfl)

/-- Settles O58: a stop bit of 1 puts the byte into the empty holding register, where it is on offer. -/
theorem uartFrameDeliversByte : Obligations.UartFrameDeliversByte := by
  intro s b rest huart hidle hsched
  have hrun := run_uartBits huart hsched
  have hframe : uartSteps s.uart (frameOf b) = { rx := .idle, hold := some b } := by
    rw [hidle]
    exact uartSteps_frame rfl b true
  rw [hframe] at hrun
  exact ⟨_, hrun, by simp [State.rxData, huart], rfl⟩

/-- Settles O59: a stop bit of 1 keeps the byte that is held. -/
theorem uartOverrunKeepsHeldByte : Obligations.UartOverrunKeepsHeldByte := by
  intro s b held rest huart hidle hsched
  have hrun := run_uartBits huart hsched
  have hframe : uartSteps s.uart (frameOf b) = s.uart := by
    rw [hidle]
    exact uartSteps_frame rfl b true
  rwa [hframe] at hrun

/-- Settles O60: a stop bit of 0 drops the byte, whatever is held. -/
theorem uartBadStopBitDropsByte : Obligations.UartBadStopBitDropsByte := by
  intro s b rest huart hidle hsched
  have hrun := run_uartBits huart hsched
  rw [uartSteps_badFrame hidle] at hrun
  exact hrun

end Sys2Proof.Machine
